-- ==== Sys2Proof/Word.lean ====
section
/-! DEFINITION. The byte of the link (R170) and nothing else: every other quantity of the part is a whole number (00_scope, 5.1). -/

namespace Sys2Proof

/-- One byte on RXD or TXD (R168). -/
abbrev Byte := BitVec 8

end Sys2Proof
end

