-- ==== Sys2Proof/Syntax.lean ====
section
/-! DEFINITION. The commands of the part: one constructor of `Instr` per row of spec/opcode_table.json, with the operand
types that the constructors carry. A request carries the values as they stand in its payload (R175), before any owner has
checked them; an event of the part carries typed operands. -/

namespace Sys2Proof

/-- Zones A..D (00_scope, 5.4), numbered 0..3 (R175). -/
inductive Zone where
  | a | b | c | d
  deriving DecidableEq, Repr

/-- The three time-proportioned outputs of a zone (R122). -/
inductive TimedOutput where
  | heat | spray | vent
  deriving DecidableEq, Repr

/-- How a request reached the part: the tag of its frame, and whether its station byte was the broadcast 0 (R169, R170). -/
structure Envelope where
  broadcast : Bool
  tag : Nat
  deriving DecidableEq, Repr

/-- An optional value as it is encoded (R175): a presence byte and the value's bytes. -/
structure RawOption where
  presence : Nat
  value : Nat
  deriving DecidableEq, Repr

/-- The fields of CW KILN in the order of R176. -/
structure RawKiln where
  maximumDb : Int
  overtempMargin : Int
  safeVent : Nat
  safeFan : Nat
  startTimeout : Nat
  overrideTimeout : Nat
  deriving DecidableEq, Repr

/-- The fields of CW ZONE in the order of R176. -/
structure RawZone where
  passInterval : Nat
  k : Nat
  nmin : Nat
  jumpLimit : Nat
  failCount : Nat
  pbHeat : Int
  pbHum : Int
  pulsePeriod : Nat
  proofDelay : Nat
  dwell : Nat
  warmupTolerance : Int
  equalizeSpread : Nat
  startMask : Nat
  preconditionMask : Nat
  grouped : Nat
  autoResume : Nat
  deriving DecidableEq, Repr

/-- The fields of CW WINDOW in the order of R8 and R176. -/
structure RawWindow where
  bank : Nat
  first : Nat
  count : Nat
  settle : Nat
  samples : Nat
  switchSettle : Nat
  deriving DecidableEq, Repr

/-- The fields of CW LINE in the order of R146. -/
structure RawLine where
  role : Nat
  zone : Nat
  polarity : Nat
  debounce : Nat
  safeLevel : Nat
  keep : Nat
  deriving DecidableEq, Repr

/-- The fields of PW in the order of R1. -/
structure RawProbe where
  zone : RawOption
  kind : Nat
  bank : Nat
  position : Nat
  group : Nat
  source : RawOption
  deriving DecidableEq, Repr

/-- The nine fields of a step record in the order of R56. -/
structure RawStep where
  last : Nat
  db : Int
  depression : Int
  rampRate : Nat
  mcThreshold : Nat
  sensor : Nat
  minTime : Nat
  maxTime : Nat
  fanInterval : Nat
  deriving DecidableEq, Repr

/-- The five fields of a phase entry table in the order of R60. -/
structure RawEntries where
  warmup : RawOption
  drying : RawOption
  equalize : RawOption
  condition : RawOption
  cooldown : RawOption
  deriving DecidableEq, Repr

/-- The commands. The first 48 are requests (section 11.8): each stands for the completion of a good frame that carries it,
addressed or broadcast as its envelope says. The others are the events of the part, of its link and of its resets. -/
inductive Instr where
  /-- ID (R182). -/
  | identify (env : Envelope)
  /-- ST (R180). -/
  | status (env : Envelope)
  /-- AK with its pairs of scope code and kind code (R181). -/
  | acknowledgeAlerts (env : Envelope) (pairs : List (Nat × Nat))
  /-- UN with eight bytes (R177). -/
  | unlock (env : Envelope) (code : List Byte)
  /-- CD with eight bytes (R177). -/
  | changeCode (env : Envelope) (code : List Byte)
  /-- RS (R162). -/
  | rsReset (env : Envelope)
  /-- CC (R165). -/
  | clearCauses (env : Envelope)
  /-- CW KILN (R176, R117). -/
  | cwKiln (env : Envelope) (fields : RawKiln)
  /-- CW ZONE z (R176, R103). -/
  | cwZone (env : Envelope) (zone : Nat) (fields : RawZone)
  /-- CW GROUP (R103). -/
  | cwGroup (env : Envelope) (holdTogether : Nat) (waitLimit : Nat)
  /-- CW SCAN (R19). -/
  | cwScan (env : Envelope) (mode : Nat) (favoured : Nat) (spotEnabled : Nat)
  /-- CW WINDOW w (R8). -/
  | cwWindow (env : Envelope) (window : Nat) (fields : RawWindow)
  /-- CW DEFAULT (R8). -/
  | cwDefault (env : Envelope) (settle : Nat) (samples : Nat)
  /-- CW LINE n (R146, R149). -/
  | cwLine (env : Envelope) (line : Nat) (fields : RawLine)
  /-- CR with its item code and the item's index, 0 where the item has none (R176). -/
  | configurationRead (env : Envelope) (item : Nat) (index : Nat)
  /-- PW (R2). -/
  | probeWrite (env : Envelope) (entry : Nat) (fields : RawProbe)
  /-- PR (R48). -/
  | probeRead (env : Envelope) (entry : Nat)
  /-- PX (R46). -/
  | excludeProbe (env : Envelope) (entry : Nat)
  /-- PI (R47). -/
  | reinstateProbe (env : Envelope) (entry : Nat)
  /-- SP (R20). -/
  | spotRequest (env : Envelope) (entry : Nat)
  /-- SR (R22). -/
  | spotResult (env : Envelope)
  /-- GW with k and the nine knots (R32). -/
  | speciesWrite (env : Envelope) (group : Nat) (k : Nat) (knots : List Nat)
  /-- GR (R34). -/
  | speciesRead (env : Envelope) (group : Nat)
  /-- SC (R62). -/
  | setCursor (env : Envelope) (index : Nat)
  /-- SW: `none` is the blank form, `some` a full record (R63). -/
  | writeRecord (env : Envelope) (record : Option RawStep)
  /-- SN (R64). -/
  | readRecord (env : Envelope)
  /-- EW (R61). -/
  | entryTableWrite (env : Envelope) (zone : Nat) (entries : RawEntries)
  /-- ER (R60). -/
  | entryTableRead (env : Envelope) (zone : Nat)
  /-- GO (R77). -/
  | startZone (env : Envelope) (zone : Nat)
  /-- HD; the target 4 is ALL (R90, R175). -/
  | hold (env : Envelope) (target : Nat)
  /-- RM (R92). -/
  | resume (env : Envelope) (zone : Nat)
  /-- SK (R93). -/
  | skip (env : Envelope) (zone : Nat)
  /-- AB (R94). -/
  | abort (env : Envelope) (zone : Nat)
  /-- RL (R69). -/
  | reloadStep (env : Envelope) (zone : Nat)
  /-- CL (R89). -/
  | clearDone (env : Envelope) (zone : Nat)
  /-- RV (R141). -/
  | recover (env : Envelope) (zone : Nat)
  /-- DS, minutes form (R85). -/
  | delayedStartMinutes (env : Envelope) (minutes : Nat)
  /-- DS, CANCEL form (R85). -/
  | delayedStartCancel (env : Envelope)
  /-- DS, QUERY form (R85). -/
  | delayedStartQuery (env : Envelope)
  /-- OV (R127). -/
  | override (env : Envelope) (zone : Nat) (output : Nat) (value : Nat)
  /-- OR (R128). -/
  | releaseOverride (env : Envelope) (zone : Nat) (output : Nat)
  /-- RF (R128). -/
  | refreshOverrides (env : Envelope)
  /-- FE (R130). -/
  | fieldEnable (env : Envelope)
  /-- FD (R130). -/
  | fieldDisable (env : Envelope)
  /-- LW with its mask and values, bit i for line Li (R152). -/
  | lineModify (env : Envelope) (mask : Nat) (values : Nat)
  /-- LR (R154). -/
  | lineRead (env : Envelope)
  /-- ZR (R101). -/
  | zoneRead (env : Envelope) (zone : Nat)
  /-- RR (R99). -/
  | runRecordRead (env : Envelope) (zone : Nat) (position : Nat)
  /-- The byte that completes a frame arrives: the frame's second CRC byte (R171). -/
  | frameComplete (crcLow : Byte)
  /-- A length byte outside 3..250 arrives (R170). -/
  | badLengthByte (length : Byte)
  /-- More than 20 ms have passed since the last byte of a partial frame (R170). -/
  | interByteTimeout
  /-- A byte arrives with its stop bit low (R170). -/
  | stopBitError
  /-- BREAK: the line stays low for 12 bit times or more (R170). -/
  | lineBreak
  /-- The moment at which a reply begins, or would have begun for a broadcast (R172, R173). -/
  | replyStart
  /-- The end of the last byte of a reply (R172). -/
  | replyEnd
  /-- The supply comes up (R162). -/
  | powerOnReset
  /-- RESET# is pulled low from outside (R162). -/
  | pinReset
  /-- The reset that follows an answered RS (R162). -/
  | commandedReset
  /-- The end of a reset, with the levels of the straps as they stand there (R163, R164). -/
  | restart (sta : BitVec 5) (bd : BitVec 2) (mxs : BitVec 2)
  /-- The store write in flight completes (R158). -/
  | storeWriteComplete
  /-- A zone's pass timer expires (R13). -/
  | passTimerExpiry (zone : Zone)
  /-- The measurement in flight completes with the samples the converter took, first to last (R11). -/
  | measurementCompletion (samples : List Int)
  /-- A zone's minute timer expires (R76). -/
  | minuteTimerExpiry (zone : Zone)
  /-- The start timeout of an ungrouped zone reaches 0 (R84). -/
  | startTimeoutExpiry (zone : Zone)
  /-- The delayed start timer reaches 0 (R85). -/
  | delayedStartExpiry
  /-- The group start timeout reaches 0 (R108). -/
  | groupStartTimeoutExpiry
  /-- A zone's climate sample timer expires, with the two samples it takes (R114, R115). -/
  | climateSampleComplete (zone : Zone) (db : Int) (wb : Int)
  /-- A zone's ramp minute timer expires (R120). -/
  | rampMinuteExpiry (zone : Zone)
  /-- A zone's pulse period timer expires (R122). -/
  | pulsePeriodStart (zone : Zone)
  /-- An on-time timer expires (R123). -/
  | onTimeExpiry (zone : Zone) (output : TimedOutput)
  /-- A zone's dwell timer expires (R125). -/
  | dwellExpiry (zone : Zone)
  /-- A zone's proof timer expires (R126). -/
  | proofDelayExpiry (zone : Zone)
  /-- The override lapse timer expires (R128). -/
  | overrideLapseExpiry
  /-- The level applied from outside to a discrete line changes; `true` is HIGH (R148). -/
  | pinChange (line : Fin 16) (high : Bool)
  /-- A line's debounce timer expires (R148). -/
  | debounceTimerExpiry (line : Fin 16)
  /-- A byte arrives on RXD (R170). -/
  | byteArrival (byte : Byte)
  /-- The supply fails (R162). -/
  | powerLoss
  deriving DecidableEq, Repr

end Sys2Proof
end

