-- ==== Sys2Proof/WellFormed.lean ====
section
/-! DEFINITION. Well-formed commands: every operand of a request fits its encoding (R175), and an event's operands are what
the converter and the line can deliver. A well-formed request may still carry values that its owner refuses. -/

namespace Sys2Proof

/-- A one-byte operand. -/
abbrev fitsByte (n : Nat) : Bool := decide (n < 256)

/-- A two-byte unsigned operand. -/
abbrev fitsWord (n : Nat) : Bool := decide (n < 65536)

/-- A two-byte operand in two's complement. -/
abbrev fitsSigned (n : Int) : Bool := decide (-32768 ≤ n) && decide (n < 32768)

/-- A tag is one byte (R170). -/
def Envelope.wf (e : Envelope) : Bool := fitsByte e.tag

def RawOption.wf (o : RawOption) : Bool := fitsByte o.presence && fitsByte o.value

def RawKiln.wf (r : RawKiln) : Bool :=
  fitsSigned r.maximumDb && fitsSigned r.overtempMargin && fitsByte r.safeVent && fitsByte r.safeFan &&
    fitsByte r.startTimeout && fitsByte r.overrideTimeout

def RawZone.wf (r : RawZone) : Bool :=
  fitsByte r.passInterval && fitsByte r.k && fitsByte r.nmin && fitsByte r.jumpLimit && fitsByte r.failCount &&
    fitsSigned r.pbHeat && fitsSigned r.pbHum && fitsWord r.pulsePeriod && fitsByte r.proofDelay && fitsWord r.dwell &&
    fitsSigned r.warmupTolerance && fitsByte r.equalizeSpread && fitsByte r.startMask && fitsByte r.preconditionMask &&
    fitsByte r.grouped && fitsByte r.autoResume

def RawWindow.wf (r : RawWindow) : Bool :=
  fitsByte r.bank && fitsByte r.first && fitsByte r.count && fitsWord r.settle && fitsByte r.samples &&
    fitsByte r.switchSettle

def RawLine.wf (r : RawLine) : Bool :=
  fitsByte r.role && fitsByte r.zone && fitsByte r.polarity && fitsByte r.debounce && fitsByte r.safeLevel &&
    fitsByte r.keep

def RawProbe.wf (r : RawProbe) : Bool :=
  r.zone.wf && fitsByte r.kind && fitsByte r.bank && fitsByte r.position && fitsByte r.group && r.source.wf

def RawStep.wf (r : RawStep) : Bool :=
  fitsByte r.last && fitsSigned r.db && fitsSigned r.depression && fitsByte r.rampRate && fitsWord r.mcThreshold &&
    fitsByte r.sensor && fitsWord r.minTime && fitsWord r.maxTime && fitsWord r.fanInterval

def RawEntries.wf (r : RawEntries) : Bool :=
  r.warmup.wf && r.drying.wf && r.equalize.wf && r.condition.wf && r.cooldown.wf

/-- An AK's pairs: at most 123 pairs of bytes (R181). -/
def pairsWf (pairs : List (Nat × Nat)) : Bool :=
  decide (pairs.length ≤ 123) && pairs.all fun x => fitsByte x.1 && fitsByte x.2

/-- The operands of a command fit their encodings. -/
def Instr.wellFormed : Instr → Bool
  | .identify env => env.wf
  | .status env => env.wf
  | .acknowledgeAlerts env pairs => env.wf && pairsWf pairs
  | .unlock env code => env.wf && code.length == 8
  | .changeCode env code => env.wf && code.length == 8
  | .rsReset env => env.wf
  | .clearCauses env => env.wf
  | .cwKiln env fields => env.wf && fields.wf
  | .cwZone env zone fields => env.wf && fitsByte zone && fields.wf
  | .cwGroup env together limit => env.wf && fitsByte together && fitsWord limit
  | .cwScan env mode favoured spot => env.wf && fitsByte mode && fitsByte favoured && fitsByte spot
  | .cwWindow env window fields => env.wf && fitsByte window && fields.wf
  | .cwDefault env settle samples => env.wf && fitsWord settle && fitsByte samples
  | .cwLine env line fields => env.wf && fitsByte line && fields.wf
  | .configurationRead env item index =>
    env.wf && decide (item < 7) && fitsByte index && (item == 1 || item == 4 || item == 6 || index == 0)
  | .probeWrite env entry fields => env.wf && fitsByte entry && fields.wf
  | .probeRead env entry => env.wf && fitsByte entry
  | .excludeProbe env entry => env.wf && fitsByte entry
  | .reinstateProbe env entry => env.wf && fitsByte entry
  | .spotRequest env entry => env.wf && fitsByte entry
  | .spotResult env => env.wf
  | .speciesWrite env group k knots =>
    env.wf && fitsByte group && fitsWord k && knots.length == 9 && knots.all fun x => fitsWord x
  | .speciesRead env group => env.wf && fitsByte group
  | .setCursor env index => env.wf && fitsByte index
  | .writeRecord env record => env.wf && (match record with | none => true | some r => r.wf)
  | .readRecord env => env.wf
  | .entryTableWrite env zone entries => env.wf && fitsByte zone && entries.wf
  | .entryTableRead env zone => env.wf && fitsByte zone
  | .startZone env zone => env.wf && fitsByte zone
  | .hold env target => env.wf && fitsByte target
  | .resume env zone => env.wf && fitsByte zone
  | .skip env zone => env.wf && fitsByte zone
  | .abort env zone => env.wf && fitsByte zone
  | .reloadStep env zone => env.wf && fitsByte zone
  | .clearDone env zone => env.wf && fitsByte zone
  | .recover env zone => env.wf && fitsByte zone
  | .delayedStartMinutes env minutes => env.wf && fitsWord minutes
  | .delayedStartCancel env => env.wf
  | .delayedStartQuery env => env.wf
  | .override env zone output value => env.wf && fitsByte zone && fitsByte output && fitsByte value
  | .releaseOverride env zone output => env.wf && fitsByte zone && fitsByte output
  | .refreshOverrides env => env.wf
  | .fieldEnable env => env.wf
  | .fieldDisable env => env.wf
  | .lineModify env mask values => env.wf && fitsWord mask && fitsWord values
  | .lineRead env => env.wf
  | .zoneRead env zone => env.wf && fitsByte zone
  | .runRecordRead env zone position => env.wf && fitsByte zone && fitsByte position
  | .frameComplete _ => true
  | .badLengthByte length => decide (length.toNat < 3) || decide (250 < length.toNat)
  | .interByteTimeout => true
  | .stopBitError => true
  | .lineBreak => true
  | .replyStart => true
  | .replyEnd => true
  | .powerOnReset => true
  | .pinReset => true
  | .commandedReset => true
  | .restart _ _ _ => true
  | .storeWriteComplete => true
  | .passTimerExpiry _ => true
  | .measurementCompletion samples => samples.length == 16
  | .minuteTimerExpiry _ => true
  | .startTimeoutExpiry _ => true
  | .delayedStartExpiry => true
  | .groupStartTimeoutExpiry => true
  | .climateSampleComplete _ db wb => fitsSigned db && fitsSigned wb
  | .rampMinuteExpiry _ => true
  | .pulsePeriodStart _ => true
  | .onTimeExpiry _ _ => true
  | .dwellExpiry _ => true
  | .proofDelayExpiry _ => true
  | .overrideLapseExpiry => true
  | .pinChange _ _ => true
  | .debounceTimerExpiry _ => true
  | .byteArrival _ => true
  | .powerLoss => true

end Sys2Proof
end

