-- ==== Sys2Proof/Decode.lean ====
section
/-! DEFINITION. The words of the opcode table (it gives no row any bits) and the request payloads of the link: their reading
and their writing (R174 check 2, R175). -/

namespace Sys2Proof

/-- The command that a word of the opcode table spells. The table gives no row any bits, so no word spells one. -/
def decodeTableWord (_nbits _w : Nat) : Option Instr := none

/-- The kinds of request, in the order of section 11.8. -/
inductive RequestKind where
  | id | st | ak | un | cd | rs | cc | cw | cr | pw | pr | px | pi | sp | sr | gw | gr | sc | sw | sn | ew | er
  | go | hd | rm | sk | ab | rl | cl | rv | ds | ov | or | rf | fe | fd | lw | lr | zr | rr
  deriving DecidableEq, Repr

/-- The two capital letters of a kind, as ASCII. -/
def RequestKind.letters : RequestKind → Byte × Byte
  | .id => (0x49, 0x44)
  | .st => (0x53, 0x54)
  | .ak => (0x41, 0x4B)
  | .un => (0x55, 0x4E)
  | .cd => (0x43, 0x44)
  | .rs => (0x52, 0x53)
  | .cc => (0x43, 0x43)
  | .cw => (0x43, 0x57)
  | .cr => (0x43, 0x52)
  | .pw => (0x50, 0x57)
  | .pr => (0x50, 0x52)
  | .px => (0x50, 0x58)
  | .pi => (0x50, 0x49)
  | .sp => (0x53, 0x50)
  | .sr => (0x53, 0x52)
  | .gw => (0x47, 0x57)
  | .gr => (0x47, 0x52)
  | .sc => (0x53, 0x43)
  | .sw => (0x53, 0x57)
  | .sn => (0x53, 0x4E)
  | .ew => (0x45, 0x57)
  | .er => (0x45, 0x52)
  | .go => (0x47, 0x4F)
  | .hd => (0x48, 0x44)
  | .rm => (0x52, 0x4D)
  | .sk => (0x53, 0x4B)
  | .ab => (0x41, 0x42)
  | .rl => (0x52, 0x4C)
  | .cl => (0x43, 0x4C)
  | .rv => (0x52, 0x56)
  | .ds => (0x44, 0x53)
  | .ov => (0x4F, 0x56)
  | .or => (0x4F, 0x52)
  | .rf => (0x52, 0x46)
  | .fe => (0x46, 0x45)
  | .fd => (0x46, 0x44)
  | .lw => (0x4C, 0x57)
  | .lr => (0x4C, 0x52)
  | .zr => (0x5A, 0x52)
  | .rr => (0x52, 0x52)

/-- Every kind. -/
def RequestKind.list : List RequestKind :=
  [.id, .st, .ak, .un, .cd, .rs, .cc, .cw, .cr, .pw, .pr, .px, .pi, .sp, .sr, .gw, .gr, .sc, .sw, .sn, .ew, .er, .go,
    .hd, .rm, .sk, .ab, .rl, .cl, .rv, .ds, .ov, .or, .rf, .fe, .fd, .lw, .lr, .zr, .rr]

/-- The kind that two bytes spell (R174 check 1). -/
def kindOf (letters : Byte × Byte) : Option RequestKind := RequestKind.list.find? fun k => k.letters == letters

/-- The kind requires the access gate OPEN (R178). -/
def RequestKind.gated : RequestKind → Bool
  | .id | .st | .ak | .un | .hd | .sp | .sr | .zr | .rr | .pr | .gr | .sn | .er | .cr | .lr | .sc => false
  | _ => true

/-- What a taken frame asks for (R174 checks 1 and 2). -/
inductive Parsed where
  /-- An unknown kind or a wrong payload length. -/
  | badForm
  /-- A known kind whose item or form is undefined, so that no payload length is prescribed for it: its gate is checked
  and then the value is refused. -/
  | undefinedValue (kind : RequestKind)
  /-- A request of the catalogue. -/
  | request (i : Instr)
  deriving DecidableEq, Repr

/-! ### Reading fields (R175) -/

/-- One unsigned byte. -/
abbrev u8 (a : Byte) : Nat := a.toNat

/-- Two unsigned bytes, high byte first. -/
def u16 (a b : Byte) : Nat := a.toNat * 256 + b.toNat

/-- Two bytes in two's complement, high byte first. -/
def s16 (a b : Byte) : Int := if a.toNat < 128 then (u16 a b : Int) else (u16 a b : Int) - 65536

/-- A presence byte and a value byte. -/
abbrev opt (a b : Byte) : RawOption := ⟨u8 a, u8 b⟩

/-- The pairs of an AK; `none` for an odd number of bytes. -/
def pairsOf : List Byte → Option (List (Nat × Nat))
  | [] => some []
  | [_] => none
  | a :: b :: rest => (pairsOf rest).map fun l => (u8 a, u8 b) :: l

/-- Two-byte fields; `none` for an odd number of bytes. -/
def wordsOf : List Byte → Option (List Nat)
  | [] => some []
  | [_] => none
  | a :: b :: rest => (wordsOf rest).map fun l => u16 a b :: l

/-- CW: the item byte, the index byte of an item that has one, and the fields (R176). -/
def parseCw (env : Envelope) : List Byte → Parsed
  | [] => .badForm
  | item :: rest =>
    match u8 item with
    | 0 =>
      match rest with
      | [a, b, c, d, e, f, g, h] => .request (.cwKiln env ⟨s16 a b, s16 c d, u8 e, u8 f, u8 g, u8 h⟩)
      | _ => .badForm
    | 1 =>
      match rest with
      | [z, a, b, c, d, e, f, g, h, i, j, k, l, m, n, o, p, q, r, s, t, u] =>
        .request
          (.cwZone env (u8 z)
            ⟨u8 a, u8 b, u8 c, u8 d, u8 e, s16 f g, s16 h i, u16 j k, u8 l, u16 m n, s16 o p, u8 q, u8 r, u8 s, u8 t, u8 u⟩)
      | _ => .badForm
    | 2 =>
      match rest with
      | [a, b, c] => .request (.cwGroup env (u8 a) (u16 b c))
      | _ => .badForm
    | 3 =>
      match rest with
      | [a, b, c] => .request (.cwScan env (u8 a) (u8 b) (u8 c))
      | _ => .badForm
    | 4 =>
      match rest with
      | [w, a, b, c, d, e, f, g] => .request (.cwWindow env (u8 w) ⟨u8 a, u8 b, u8 c, u16 d e, u8 f, u8 g⟩)
      | _ => .badForm
    | 5 =>
      match rest with
      | [a, b, c] => .request (.cwDefault env (u16 a b) (u8 c))
      | _ => .badForm
    | 6 =>
      match rest with
      | [n, a, b, c, d, e, f] => .request (.cwLine env (u8 n) ⟨u8 a, u8 b, u8 c, u8 d, u8 e, u8 f⟩)
      | _ => .badForm
    | _ => .undefinedValue .cw

/-- CR: the item byte, and the index byte of an item that has one (R176). -/
def parseCr (env : Envelope) : List Byte → Parsed
  | [] => .badForm
  | item :: rest =>
    match u8 item, rest with
    | 0, [] => .request (.configurationRead env 0 0)
    | 1, [z] => .request (.configurationRead env 1 (u8 z))
    | 2, [] => .request (.configurationRead env 2 0)
    | 3, [] => .request (.configurationRead env 3 0)
    | 4, [w] => .request (.configurationRead env 4 (u8 w))
    | 5, [] => .request (.configurationRead env 5 0)
    | 6, [n] => .request (.configurationRead env 6 (u8 n))
    | x, _ => if x < 7 then .badForm else .undefinedValue .cr

/-- SW: form byte 0 alone, or form byte 1 and the nine fields (R174, R175). -/
def parseSw (env : Envelope) : List Byte → Parsed
  | [f] => if u8 f = 0 then .request (.writeRecord env none) else .badForm
  | [f, a, b, c, d, e, g, h, i, j, k, l, m, n, o, p] =>
    if u8 f = 1 then
      .request
        (.writeRecord env
          (some ⟨u8 a, s16 b c, s16 d e, u8 g, u16 h i, u8 j, u16 k l, u16 m n, u16 o p⟩))
    else .badForm
  | _ => .badForm

/-- AK: a count and as many pairs (R181). -/
def parseAk (env : Envelope) : List Byte → Parsed
  | [] => .badForm
  | n :: rest =>
    match pairsOf rest with
    | some pairs => if pairs.length = u8 n then .request (.acknowledgeAlerts env pairs) else .badForm
    | none => .badForm

/-- GW: the group, k and the nine knots (R32). -/
def parseGw (env : Envelope) : List Byte → Parsed
  | g :: a :: b :: rest =>
    match wordsOf rest with
    | some knots => if knots.length = 9 then .request (.speciesWrite env (u8 g) (u16 a b) knots) else .badForm
    | none => .badForm
  | _ => .badForm

/-- DS: a form byte and two bytes of minutes, read for the minutes form alone (R85). -/
def parseDs (env : Envelope) : List Byte → Parsed
  | [f, a, b] =>
    match u8 f with
    | 0 => .request (.delayedStartMinutes env (u16 a b))
    | 1 => .request (.delayedStartCancel env)
    | 2 => .request (.delayedStartQuery env)
    | _ => .undefinedValue .ds
  | _ => .badForm

/-- A payload of no byte. -/
def parse0 (i : Instr) : List Byte → Parsed
  | [] => .request i
  | _ => .badForm

/-- A payload of one byte. -/
def parse1 (f : Nat → Instr) : List Byte → Parsed
  | [a] => .request (f (u8 a))
  | _ => .badForm

/-- The request that a kind and a payload carry (R174 check 2). -/
def parsePayload (env : Envelope) (kind : RequestKind) (payload : List Byte) : Parsed :=
  match kind with
  | .id => parse0 (.identify env) payload
  | .st => parse0 (.status env) payload
  | .ak => parseAk env payload
  | .un => if payload.length = 8 then .request (.unlock env payload) else .badForm
  | .cd => if payload.length = 8 then .request (.changeCode env payload) else .badForm
  | .rs => parse0 (.rsReset env) payload
  | .cc => parse0 (.clearCauses env) payload
  | .cw => parseCw env payload
  | .cr => parseCr env payload
  | .pw =>
    match payload with
    | [i, a, b, c, d, e, f, g, h] =>
      .request (.probeWrite env (u8 i) ⟨opt a b, u8 c, u8 d, u8 e, u8 f, opt g h⟩)
    | _ => .badForm
  | .pr => parse1 (.probeRead env) payload
  | .px => parse1 (.excludeProbe env) payload
  | .pi => parse1 (.reinstateProbe env) payload
  | .sp => parse1 (.spotRequest env) payload
  | .sr => parse0 (.spotResult env) payload
  | .gw => parseGw env payload
  | .gr => parse1 (.speciesRead env) payload
  | .sc => parse1 (.setCursor env) payload
  | .sw => parseSw env payload
  | .sn => parse0 (.readRecord env) payload
  | .ew =>
    match payload with
    | [z, a, b, c, d, e, f, g, h, i, j] =>
      .request (.entryTableWrite env (u8 z) ⟨opt a b, opt c d, opt e f, opt g h, opt i j⟩)
    | _ => .badForm
  | .er => parse1 (.entryTableRead env) payload
  | .go => parse1 (.startZone env) payload
  | .hd => parse1 (.hold env) payload
  | .rm => parse1 (.resume env) payload
  | .sk => parse1 (.skip env) payload
  | .ab => parse1 (.abort env) payload
  | .rl => parse1 (.reloadStep env) payload
  | .cl => parse1 (.clearDone env) payload
  | .rv => parse1 (.recover env) payload
  | .ds => parseDs env payload
  | .ov =>
    match payload with
    | [z, o, v] => .request (.override env (u8 z) (u8 o) (u8 v))
    | _ => .badForm
  | .or =>
    match payload with
    | [z, o] => .request (.releaseOverride env (u8 z) (u8 o))
    | _ => .badForm
  | .rf => parse0 (.refreshOverrides env) payload
  | .fe => parse0 (.fieldEnable env) payload
  | .fd => parse0 (.fieldDisable env) payload
  | .lw =>
    match payload with
    | [a, b, c, d] => .request (.lineModify env (u16 a b) (u16 c d))
    | _ => .badForm
  | .lr => parse0 (.lineRead env) payload
  | .zr => parse1 (.zoneRead env) payload
  | .rr =>
    match payload with
    | [z, n] => .request (.runRecordRead env (u8 z) (u8 n))
    | _ => .badForm

/-- The request that a frame's kind bytes and payload carry (R174 checks 1 and 2). -/
def parseRequest (env : Envelope) (letters : Byte × Byte) (payload : List Byte) : Parsed :=
  match kindOf letters with
  | none => .badForm
  | some kind => parsePayload env kind payload

/-! ### Writing fields (R175) -/

/-- One byte. -/
def b8 (n : Nat) : Byte := BitVec.ofNat 8 n

/-- Two bytes, high byte first. -/
def b16 (n : Nat) : List Byte := [b8 (n / 256), b8 n]

/-- Two bytes in two's complement, high byte first. -/
def bs16 (n : Int) : List Byte := b16 ((n % 65536).toNat)

/-- A presence byte and a value byte. -/
def bopt (o : RawOption) : List Byte := [b8 o.presence, b8 o.value]

/-- The kind and the payload that carry a request; `none` for an event of the part. -/
def encodeRequest : Instr → Option (RequestKind × List Byte)
  | .identify _ => some (.id, [])
  | .status _ => some (.st, [])
  | .acknowledgeAlerts _ pairs => some (.ak, b8 pairs.length :: pairs.flatMap fun x => [b8 x.1, b8 x.2])
  | .unlock _ code => some (.un, code)
  | .changeCode _ code => some (.cd, code)
  | .rsReset _ => some (.rs, [])
  | .clearCauses _ => some (.cc, [])
  | .cwKiln _ r =>
    some
      (.cw,
        [b8 0] ++ bs16 r.maximumDb ++ bs16 r.overtempMargin ++
          [b8 r.safeVent, b8 r.safeFan, b8 r.startTimeout, b8 r.overrideTimeout])
  | .cwZone _ z r =>
    some
      (.cw,
        [b8 1, b8 z, b8 r.passInterval, b8 r.k, b8 r.nmin, b8 r.jumpLimit, b8 r.failCount] ++ bs16 r.pbHeat ++
          bs16 r.pbHum ++ b16 r.pulsePeriod ++ [b8 r.proofDelay] ++ b16 r.dwell ++ bs16 r.warmupTolerance ++
          [b8 r.equalizeSpread, b8 r.startMask, b8 r.preconditionMask, b8 r.grouped, b8 r.autoResume])
  | .cwGroup _ together limit => some (.cw, [b8 2, b8 together] ++ b16 limit)
  | .cwScan _ mode favoured spot => some (.cw, [b8 3, b8 mode, b8 favoured, b8 spot])
  | .cwWindow _ w r =>
    some (.cw, [b8 4, b8 w, b8 r.bank, b8 r.first, b8 r.count] ++ b16 r.settle ++ [b8 r.samples, b8 r.switchSettle])
  | .cwDefault _ settle samples => some (.cw, [b8 5] ++ b16 settle ++ [b8 samples])
  | .cwLine _ n r =>
    some (.cw, [b8 6, b8 n, b8 r.role, b8 r.zone, b8 r.polarity, b8 r.debounce, b8 r.safeLevel, b8 r.keep])
  | .configurationRead _ item index =>
    some (.cr, if item = 1 ∨ item = 4 ∨ item = 6 then [b8 item, b8 index] else [b8 item])
  | .probeWrite _ i r =>
    some (.pw, [b8 i] ++ bopt r.zone ++ [b8 r.kind, b8 r.bank, b8 r.position, b8 r.group] ++ bopt r.source)
  | .probeRead _ i => some (.pr, [b8 i])
  | .excludeProbe _ i => some (.px, [b8 i])
  | .reinstateProbe _ i => some (.pi, [b8 i])
  | .spotRequest _ i => some (.sp, [b8 i])
  | .spotResult _ => some (.sr, [])
  | .speciesWrite _ g k knots => some (.gw, [b8 g] ++ b16 k ++ knots.flatMap b16)
  | .speciesRead _ g => some (.gr, [b8 g])
  | .setCursor _ i => some (.sc, [b8 i])
  | .writeRecord _ none => some (.sw, [b8 0])
  | .writeRecord _ (some r) =>
    some
      (.sw,
        [b8 1, b8 r.last] ++ bs16 r.db ++ bs16 r.depression ++ [b8 r.rampRate] ++ b16 r.mcThreshold ++ [b8 r.sensor] ++
          b16 r.minTime ++ b16 r.maxTime ++ b16 r.fanInterval)
  | .readRecord _ => some (.sn, [])
  | .entryTableWrite _ z e =>
    some (.ew, [b8 z] ++ bopt e.warmup ++ bopt e.drying ++ bopt e.equalize ++ bopt e.condition ++ bopt e.cooldown)
  | .entryTableRead _ z => some (.er, [b8 z])
  | .startZone _ z => some (.go, [b8 z])
  | .hold _ z => some (.hd, [b8 z])
  | .resume _ z => some (.rm, [b8 z])
  | .skip _ z => some (.sk, [b8 z])
  | .abort _ z => some (.ab, [b8 z])
  | .reloadStep _ z => some (.rl, [b8 z])
  | .clearDone _ z => some (.cl, [b8 z])
  | .recover _ z => some (.rv, [b8 z])
  | .delayedStartMinutes _ m => some (.ds, [b8 0] ++ b16 m)
  | .delayedStartCancel _ => some (.ds, [b8 1, b8 0, b8 0])
  | .delayedStartQuery _ => some (.ds, [b8 2, b8 0, b8 0])
  | .override _ z o v => some (.ov, [b8 z, b8 o, b8 v])
  | .releaseOverride _ z o => some (.or, [b8 z, b8 o])
  | .refreshOverrides _ => some (.rf, [])
  | .fieldEnable _ => some (.fe, [])
  | .fieldDisable _ => some (.fd, [])
  | .lineModify _ mask values => some (.lw, b16 mask ++ b16 values)
  | .lineRead _ => some (.lr, [])
  | .zoneRead _ z => some (.zr, [b8 z])
  | .runRecordRead _ z n => some (.rr, [b8 z, b8 n])
  | .frameComplete _ => none
  | .badLengthByte _ => none
  | .interByteTimeout => none
  | .stopBitError => none
  | .lineBreak => none
  | .replyStart => none
  | .replyEnd => none
  | .powerOnReset => none
  | .pinReset => none
  | .commandedReset => none
  | .restart _ _ _ => none
  | .storeWriteComplete => none
  | .passTimerExpiry _ => none
  | .measurementCompletion _ => none
  | .minuteTimerExpiry _ => none
  | .startTimeoutExpiry _ => none
  | .delayedStartExpiry => none
  | .groupStartTimeoutExpiry => none
  | .climateSampleComplete _ _ _ => none
  | .rampMinuteExpiry _ => none
  | .pulsePeriodStart _ => none
  | .onTimeExpiry _ _ => none
  | .dwellExpiry _ => none
  | .proofDelayExpiry _ => none
  | .overrideLapseExpiry => none
  | .pinChange _ _ => none
  | .debounceTimerExpiry _ => none
  | .byteArrival _ => none
  | .powerLoss => none

/-- The envelope of a request; an event of the part has none. -/
def Instr.envelope : Instr → Option Envelope
  | .identify env | .status env | .acknowledgeAlerts env _ | .unlock env _ | .changeCode env _ | .rsReset env
  | .clearCauses env | .cwKiln env _ | .cwZone env _ _ | .cwGroup env _ _ | .cwScan env _ _ _ | .cwWindow env _ _
  | .cwDefault env _ _ | .cwLine env _ _ | .configurationRead env _ _ | .probeWrite env _ _ | .probeRead env _
  | .excludeProbe env _ | .reinstateProbe env _ | .spotRequest env _ | .spotResult env | .speciesWrite env _ _ _
  | .speciesRead env _ | .setCursor env _ | .writeRecord env _ | .readRecord env | .entryTableWrite env _ _
  | .entryTableRead env _ | .startZone env _ | .hold env _ | .resume env _ | .skip env _ | .abort env _
  | .reloadStep env _ | .clearDone env _ | .recover env _ | .delayedStartMinutes env _ | .delayedStartCancel env
  | .delayedStartQuery env | .override env _ _ _ | .releaseOverride env _ _ | .refreshOverrides env | .fieldEnable env
  | .fieldDisable env | .lineModify env _ _ | .lineRead env | .zoneRead env _ | .runRecordRead env _ _ => some env
  | _ => none

end Sys2Proof
end

