-- ==== Sys2Proof/Config.lean ====
section
/-! DEFINITION. What the manual leaves to the part: constants with no body, so that no proof can see their value. -/

namespace Sys2Proof

/-- The one-byte revision level that ID returns (R182). The manual states no value: a FREE VALUE, log entry 6. -/
opaque Config.revisionLevel : Byte

end Sys2Proof
end

