-- ==== Sys2Proof/Machine/State.lean ====
section
/-! DEFINITION. The state of the ZK-440 as plain data: the link, the plant (everything below the link) and the queue of
waiting commands; the reasons to stop; the state right after reset. -/

namespace Sys2Proof.Machine

/-! ### Containers -/

/-- A table of `n` cells: the 64 probe entries, the 128 step records, the 16 lines, the 8 groups, the 4 windows. -/
structure Table (n : Nat) (α : Type) where
  cells : List α
  size : cells.length = n
  deriving DecidableEq, Repr

/-- The cell at an index. -/
def Table.get {n : Nat} {α : Type} (t : Table n α) (i : Fin n) : α :=
  t.cells[i.val]'(by rw [t.size]; exact i.isLt)

/-- The table with one cell replaced. -/
def Table.set {n : Nat} {α : Type} (t : Table n α) (i : Fin n) (x : α) : Table n α :=
  ⟨t.cells.set i.val x, by rw [List.length_set]; exact t.size⟩

/-- The table with the same value in every cell. -/
def Table.fill (n : Nat) {α : Type} (x : α) : Table n α :=
  ⟨List.replicate n x, List.length_replicate⟩

/-- The table of `f i` for every index `i`. -/
def Table.tabulate (n : Nat) {α : Type} (f : Fin n → α) : Table n α :=
  ⟨(List.finRange n).map f, by rw [List.length_map, List.length_finRange]⟩

/-- One value for each zone. -/
structure PerZone (α : Type) where
  a : α
  b : α
  c : α
  d : α
  deriving DecidableEq, Repr

/-- The value of one zone. -/
def PerZone.get {α : Type} (t : PerZone α) : Zone → α
  | .a => t.a
  | .b => t.b
  | .c => t.c
  | .d => t.d

/-- The values with one zone's replaced. -/
def PerZone.set {α : Type} (t : PerZone α) (z : Zone) (x : α) : PerZone α :=
  match z with
  | .a => { t with a := x }
  | .b => { t with b := x }
  | .c => { t with c := x }
  | .d => { t with d := x }

/-- The same value for every zone. -/
def PerZone.all {α : Type} (x : α) : PerZone α := ⟨x, x, x, x⟩

/-- A timer: stopped, or running with the milliseconds that remain. -/
abbrev Timer := Option Nat

/-! ### Schedules (chapter 4) -/

/-- The five phases in their order (R59). -/
inductive Phase where
  | warmup | drying | equalize | condition | cooldown
  deriving DecidableEq, Repr

/-- The sensor condition of a step (R56). -/
inductive SensorUse where
  | used | notUsed
  deriving DecidableEq, Repr

/-- A step record that is not blank (R56). -/
structure StepRecord where
  last : Bool
  db : Int
  depression : Int
  rampRate : Nat
  mcThreshold : Nat
  sensor : SensorUse
  minTime : Nat
  maxTime : Nat
  fanInterval : Nat
  deriving DecidableEq, Repr

/-- One zone's phase entry table; `none` is NONE (R60). -/
structure PhaseEntries where
  warmup : Option (Fin 128) := none
  drying : Option (Fin 128) := none
  equalize : Option (Fin 128) := none
  condition : Option (Fin 128) := none
  cooldown : Option (Fin 128) := none
  deriving DecidableEq, Repr

/-- The reason of a validation finding (R66, R67). -/
inductive FindingReason where
  | noEntry | blankRecord | noMarker | stepOutside
  deriving DecidableEq, Repr

/-- A validation finding: phase, reason and record index (R66, R67). -/
structure Finding where
  phase : Phase
  reason : FindingReason
  record : Option (Fin 128)
  deriving DecidableEq, Repr

/-! ### Probes (chapters 1 to 3) -/

/-- The kind of a probe table entry (R1). -/
inductive ProbeKind where
  | moisture | woodTemp
  deriving DecidableEq, Repr

/-- The configuration of one probe table entry (R1); `zone = none` marks the entry free. -/
structure ProbeConfig where
  zone : Option Zone := none
  kind : ProbeKind := .moisture
  bank : Fin 4 := 0
  position : Fin 64 := 0
  group : Fin 8 := 0
  source : Option (Fin 64) := none
  deriving DecidableEq, Repr

/-- The judgement of an entry (R39). -/
inductive ProbeState where
  | unseen | valid | held | short | open | failed | excluded | unreachable
  deriving DecidableEq, Repr

/-- The flags of a moisture reading (R36). -/
structure MoistureFlags where
  aboveRange : Bool := false
  belowRange : Bool := false
  uncorrected : Bool := false
  deriving DecidableEq, Repr

/-- The runtime record of an assigned entry (R38); the default is its reset form. -/
structure ProbeRecord where
  state : ProbeState := .unseen
  lastRaw : Option Int := none
  lastAccepted : Option Int := none
  flags : MoistureFlags := {}
  candidate : Option Int := none
  heldCount : Nat := 0
  failStreak : Nat := 0
  runMinute : Option Nat := none
  deriving DecidableEq, Repr

/-- The classification of an averaged result (R25, R26). -/
inductive Classification where
  | inRange | short | open
  deriving DecidableEq, Repr

/-- A zone's controlling moisture content with its flag (R50, R51). -/
structure Cmc where
  value : Int
  aboveRange : Bool
  deriving DecidableEq, Repr

/-- A zone aggregate (R49). -/
structure Aggregate where
  count : Nat := 0
  cmc : Option Cmc := none
  dmc : Option Int := none
  contributing : List (Fin 64) := []
  zwt : Option Int := none
  blind : Bool := false
  deriving DecidableEq, Repr

/-- One species group (R31). -/
structure SpeciesGroup where
  k : Nat
  knots : Table 9 Nat
  deriving DecidableEq, Repr

/-- The requesters of the front end, in the cyclic order of R17. -/
inductive Requester where
  | zone (z : Zone)
  | spot
  deriving DecidableEq, Repr

/-- The source of a measurement's profile (R9). -/
inductive WindowId where
  | window (w : Fin 4)
  | default
  deriving DecidableEq, Repr

/-- The measurement in flight, as the front end took it at its start (R10). -/
structure Measurement where
  requester : Requester
  entry : Fin 64
  kind : ProbeKind
  bank : Fin 4
  position : Fin 64
  window : WindowId
  samples : Nat
  /-- The duration of R10 in milliseconds. -/
  duration : Nat
  stale : Bool
  deriving DecidableEq, Repr

/-- The Measurement Front End: FREE when no measurement is in flight (R10). -/
structure FrontEnd where
  inFlight : Option Measurement := none
  previous : Option WindowId := none
  deriving DecidableEq, Repr

/-- The favour turn (R16). -/
inductive FavourTurn where
  | favoured | others
  deriving DecidableEq, Repr

/-- The arbiter's state (R16). -/
structure Arbiter where
  pointer : Requester := .spot
  turn : FavourTurn := .favoured
  deriving DecidableEq, Repr

/-- A stored spot result (R21, R22). -/
structure SpotReading where
  entry : Fin 64
  kind : ProbeKind
  raw : Int
  classification : Classification
  value : Option (Int × MoistureFlags)
  deriving DecidableEq, Repr

/-- The spot slot (R20). -/
inductive SpotSlot where
  | empty
  | waiting (entry : Fin 64)
  | measuring (entry : Fin 64)
  | done (reading : SpotReading)
  deriving DecidableEq, Repr

/-- A pass in progress: its snapshot and what of it is still to come, the entry at its position first (R14, R15). -/
structure PassProgress where
  snapshot : List (Fin 64)
  rest : List (Fin 64)
  deriving DecidableEq, Repr

/-- A zone's scanning state (R13). -/
structure PassState where
  timer : Timer := none
  due : Bool := false
  progress : Option PassProgress := none
  deriving DecidableEq, Repr

/-! ### Configuration items (R176) -/

/-- The KILN safe vent level (R129). -/
inductive SafeVent where
  | open | closed
  deriving DecidableEq, Repr

/-- The KILN safe fan setting (R124). -/
inductive SafeFan where
  | run | stop
  deriving DecidableEq, Repr

/-- KILN. -/
structure KilnConfig where
  maximumDb : Int := 900
  overtempMargin : Int := 30
  safeVent : SafeVent := .open
  safeFan : SafeFan := .stop
  startTimeout : Nat := 30
  overrideTimeout : Nat := 10
  deriving DecidableEq, Repr

/-- A subset of {HOST, LINE, TIMER} (section 5.2). -/
structure StartMask where
  host : Bool := true
  line : Bool := false
  timer : Bool := false
  deriving DecidableEq, Repr

/-- A subset of {DOOR, FAN, PROBES} (R81). -/
structure PreconditionMask where
  door : Bool := true
  fan : Bool := true
  probes : Bool := true
  deriving DecidableEq, Repr

/-- ZONE z. -/
structure ZoneConfig where
  passInterval : Nat := 15
  k : Nat := 3
  nmin : Nat := 2
  jumpLimit : Nat := 20
  failCount : Nat := 3
  pbHeat : Int := 30
  pbHum : Int := 20
  pulsePeriod : Nat := 60
  proofDelay : Nat := 20
  dwell : Nat := 30
  warmupTolerance : Int := 20
  equalizeSpread : Nat := 20
  startMask : StartMask := {}
  preconditions : PreconditionMask := {}
  grouped : Bool := false
  autoResume : Bool := false
  deriving DecidableEq, Repr

/-- GROUP (R103). -/
structure GroupConfig where
  holdTogether : Bool := true
  waitLimit : Nat := 0
  deriving DecidableEq, Repr

/-- The arbitration mode (R19). -/
inductive ScanMode where
  | equal | favor
  deriving DecidableEq, Repr

/-- SCAN (R19). -/
structure ScanConfig where
  mode : ScanMode := .equal
  favoured : Zone := .a
  spotEnabled : Bool := true
  deriving DecidableEq, Repr

/-- WINDOW w (R8). -/
structure WindowConfig where
  bank : Nat := 0
  first : Nat := 0
  count : Nat := 0
  settle : Nat := 100
  samples : Nat := 4
  switchSettle : Bool := false
  deriving DecidableEq, Repr

/-- DEFAULT (R8). -/
structure DefaultProfile where
  settle : Nat := 100
  samples : Nat := 4
  deriving DecidableEq, Repr

/-- The role of a discrete line (R146). -/
inductive LineRole where
  | none | door | fanProof | startButton | holdIn | alarmOut | generalIn | generalOut
  deriving DecidableEq, Repr

/-- The polarity of a discrete line (R146). -/
inductive Polarity where
  | activeHigh | activeLow
  deriving DecidableEq, Repr

/-- LINE n; `safeActive` is the safe level, ACTIVE when true (R146). -/
structure LineConfig where
  role : LineRole := .none
  zone : Zone := .a
  polarity : Polarity := .activeHigh
  debounce : Nat := 3
  safeActive : Bool := false
  keep : Bool := false
  deriving DecidableEq, Repr

/-- The content of the configuration section (R156). -/
structure Configuration where
  kiln : KilnConfig
  zones : PerZone ZoneConfig
  group : GroupConfig
  scan : ScanConfig
  windows : Table 4 WindowConfig
  default : DefaultProfile
  lines : Table 16 LineConfig
  deriving DecidableEq, Repr

/-- The working copies of the first six sections (R156). -/
structure Working where
  config : Configuration
  probes : Table 64 ProbeConfig
  species : Table 8 SpeciesGroup
  records : Table 128 (Option StepRecord)
  entries : PerZone PhaseEntries
  code : List Byte
  deriving DecidableEq, Repr

/-! ### Zone sequencer (chapter 5) -/

/-- The state of a zone (R73); `phase p` is the phase state of `p`. -/
inductive ZoneState where
  | idle
  | starting
  | phase (p : Phase)
  | held
  | safe
  | done
  | resumePending
  deriving DecidableEq, Repr

/-- The hold-cause set, a subset of {HOST, LINE} (R73). -/
structure HoldCauses where
  host : Bool := false
  line : Bool := false
  deriving DecidableEq, Repr

/-- The exit reasons (R87). -/
inductive ExitReason where
  | sensorMet | timeOnly | maxTime | skipped
  deriving DecidableEq, Repr

/-- The sources of a start (R80). -/
inductive StartSource where
  | host | line | timer | group
  deriving DecidableEq, Repr

/-- The causes of a failed start (R80). -/
inductive FailureCause where
  | fieldDisabled | badSchedule | timeout
  deriving DecidableEq, Repr

/-- A subset of {DOOR, FAN, PROBES, CLIMATE, GROUP} (R80). -/
structure Unmet where
  door : Bool := false
  fan : Bool := false
  probes : Bool := false
  climate : Bool := false
  group : Bool := false
  deriving DecidableEq, Repr

/-- A last start failure (R80). -/
structure StartFailure where
  source : StartSource
  cause : FailureCause
  finding : Option Finding
  unmet : Option Unmet
  deriving DecidableEq, Repr

/-- The kinds of run record entry (R97). -/
inductive RunKind where
  | started | stepLeft | held | resumed | safeEntered | safeLeft | aborted | done | restarted
  deriving DecidableEq, Repr

/-- One run record entry (R97). The step index is present at every event of R98. -/
structure RunEntry where
  kind : RunKind
  minute : Nat
  step : Option (Fin 128)
  reason : Option ExitReason
  cmc : Option Cmc
  dmc : Option Int
  deriving DecidableEq, Repr

/-- The fan direction (R124). -/
inductive Direction where
  | forward | reverse
  deriving DecidableEq, Repr

/-- The recorded state of a checkpoint (R160). -/
inductive RecordedState where
  | idle
  | done
  | phase (p : Phase)
  | held (p : Phase)
  deriving DecidableEq, Repr

/-- A zone's checkpoint (R160). -/
structure Checkpoint where
  recorded : RecordedState := .idle
  step : Option (Fin 128) := none
  stepClock : Nat := 0
  runClock : Nat := 0
  detached : Bool := false
  hostHold : Bool := false
  direction : Direction := .forward
  deriving DecidableEq, Repr

/-- The zone context (R73), with the run record (R97), the minute timer (R76) and the member's wait count (R104). -/
structure ZoneContext where
  state : ZoneState := .idle
  /-- Present in HELD and SAFE only. -/
  underlying : Option Phase := none
  holds : HoldCauses := {}
  holdPending : Bool := false
  stepIndex : Option (Fin 128) := none
  activeCopy : Option StepRecord := none
  stepClock : Nat := 0
  runClock : Nat := 0
  /-- `none` is not eligible. -/
  eligible : Option ExitReason := none
  waiting : Bool := false
  waitCount : Nat := 0
  detached : Bool := false
  /-- The zone's own start timeout; a grouped zone runs on the group start timeout (R106). -/
  startTimeout : Timer := none
  /-- The source of the start the zone is, or was last, in STARTING for (R80). -/
  startSource : StartSource := .host
  /-- What the latest evaluation of R81 found (R107). -/
  ready : Bool := false
  checkpointCount : Nat := 0
  lastFailure : Option StartFailure := none
  minuteTimer : Timer := none
  runRecord : List RunEntry := []
  dropped : Nat := 0
  /-- The checkpoint that a zone in RESUME_PENDING holds (R164). -/
  resumeFrom : Option Checkpoint := none
  deriving DecidableEq, Repr

/-! ### Climate and outputs (chapter 7) -/

/-- The status of a climate sensor (R114). -/
inductive SensorStatus where
  | unsampled | good | faulty
  deriving DecidableEq, Repr

/-- A sensor record (R114). -/
structure SensorRecord where
  status : SensorStatus := .unsampled
  value : Option Int := none
  goodStreak : Nat := 0
  deriving DecidableEq, Repr

/-- A zone's climate state. The targets are in ramp units of 1/600 degree (R118). -/
structure ClimateState where
  sampleTimer : Timer := none
  db : SensorRecord := {}
  wb : SensorRecord := {}
  dbSetpoint : Option Int := none
  wbSetpoint : Option Int := none
  rampRate : Nat := 0
  dbTarget : Int := 0
  wbTarget : Int := 0
  rampTimer : Timer := none
  deriving DecidableEq, Repr

/-- One time-proportioned output: its automatic level, the on-time of the current period in seconds and its timer (R123). -/
structure AutoOutput where
  level : Bool := false
  onTime : Nat := 0
  timer : Timer := none
  deriving DecidableEq, Repr

/-- The states of the fan machine (R124). -/
inductive FanMachine where
  | stopped | runFwd | dwellToRev | runRev | dwellToFwd
  deriving DecidableEq, Repr

/-- A zone's fan state (R124, R125). -/
structure FanState where
  machine : FanMachine := .stopped
  direction : Direction := .forward
  reversalCount : Nat := 0
  interval : Nat := 0
  dwellTimer : Timer := none
  deriving DecidableEq, Repr

/-- One entry of the override table (R127). -/
inductive OverrideEntry where
  | auto | on | off
  deriving DecidableEq, Repr

/-- A zone's override table (R127). -/
structure OverrideTable where
  heat : OverrideEntry := .auto
  spray : OverrideEntry := .auto
  vent : OverrideEntry := .auto
  fanRun : OverrideEntry := .auto
  fanDir : OverrideEntry := .auto
  deriving DecidableEq, Repr

/-- The five pins of a zone (R129): `true` is on, asserted, or reverse. -/
structure ZonePins where
  heat : Bool := false
  spray : Bool := false
  vent : Bool := false
  fanRun : Bool := false
  fanDir : Bool := false
  deriving DecidableEq, Repr

/-- A zone's output state. -/
structure OutputState where
  pulseTimer : Timer := none
  heat : AutoOutput := {}
  spray : AutoOutput := {}
  vent : AutoOutput := {}
  fan : FanState := {}
  proofTimer : Timer := none
  overrides : OverrideTable := {}
  pins : ZonePins := {}
  deriving DecidableEq, Repr

/-- A safe-cause set, a subset of {DOOR, SENSOR, FAN, OVERTEMP} (R133). -/
structure SafeCauses where
  door : Bool := false
  sensor : Bool := false
  fan : Bool := false
  overtemp : Bool := false
  deriving DecidableEq, Repr

/-- Everything the part holds for one zone. -/
structure ZoneUnit where
  ctx : ZoneContext := {}
  aggregate : Aggregate := {}
  climate : ClimateState := {}
  output : OutputState := {}
  causes : SafeCauses := {}
  proofOverdue : Bool := false
  pass : PassState := {}
  deriving DecidableEq, Repr

/-! ### Discrete lines (chapter 9) -/

/-- The volatile items of a line (R146). `external` is the level applied from outside, HIGH when true; `pin` is the level at
the pin. -/
structure LineState where
  latch : Bool := false
  external : Bool := false
  pin : Bool := false
  debounced : Bool := false
  settled : Bool := false
  timer : Timer := none
  deriving DecidableEq, Repr

/-! ### The store (chapter 10) -/

/-- The first six sections (R156). -/
inductive SectionName where
  | configuration | probeTable | species | schedule | entryTables | accessCode
  deriving DecidableEq, Repr

/-- The content of one of the first six sections. -/
inductive SectionContent where
  | configuration (c : Configuration)
  | probeTable (t : Table 64 ProbeConfig)
  | species (t : Table 8 SpeciesGroup)
  | schedule (t : Table 128 (Option StepRecord))
  | entryTables (t : PerZone PhaseEntries)
  | accessCode (bytes : List Byte)
  deriving DecidableEq, Repr

/-- An item of the store write queue (R158). -/
inductive StoreItem where
  | host (s : SectionName)
  | checkpoint (z : Zone) (c : Checkpoint)
  deriving DecidableEq, Repr

/-- A write in flight, with the content it took when it began (R158). -/
inductive StoreWrite where
  | host (content : SectionContent)
  | checkpoint (z : Zone) (c : Checkpoint)
  deriving DecidableEq, Repr

/-- The store write queue (R158): oldest first. -/
structure StoreQueue where
  inFlight : Option StoreWrite := none
  waiting : List StoreItem := []
  deriving DecidableEq, Repr

/-- The nonvolatile store. `none` is a section that fails its check (R157): its content is never read. -/
structure Nonvolatile where
  configuration : Option Configuration
  probeTable : Option (Table 64 ProbeConfig)
  species : Option (Table 8 SpeciesGroup)
  schedule : Option (Table 128 (Option StepRecord))
  entryTables : Option (PerZone PhaseEntries)
  accessCode : Option (List Byte)
  checkpoints : PerZone (Option Checkpoint)
  deriving DecidableEq, Repr

/-! ### Alerts (R179) -/

/-- The zone kinds, encoded 0..11 in this order. -/
inductive ZoneAlert where
  | stepAdvanced | phaseChanged | forcedAdvance | runDone | startFailed | probeFailed | probeShortage | safeEntered
  | targetClamped | groupDetached | resumeWaiting | checkpointLost
  deriving DecidableEq, Repr

/-- The device kinds, encoded 0..3 in this order. -/
inductive DeviceAlert where
  | resetSeen | overrideLapsed | storeDefaulted | unreachableProbes
  deriving DecidableEq, Repr

/-- A pair of scope and kind. -/
inductive Alert where
  | zone (z : Zone) (k : ZoneAlert)
  | device (k : DeviceAlert)
  deriving DecidableEq, Repr

/-! ### Replies (chapter 11) -/

/-- The status codes, 0x00..0x09 in this order (R174). -/
inductive Status where
  | ok | clamped | pending | denied | wrongState | badValue | badForm | slotBusy | conflict | badSchedule
  deriving DecidableEq, Repr

/-- The access gate (R177). -/
inductive Gate where
  | locked | open | barred
  deriving DecidableEq, Repr

/-- The kinds of reset (R162). -/
inductive ResetKind where
  | powerOn | pin | commanded
  deriving DecidableEq, Repr

/-- The cause record (R165). -/
structure CauseRecord where
  powerOn : Bool := false
  pin : Bool := false
  commanded : Bool := false
  lastKind : ResetKind := .powerOn
  deriving DecidableEq, Repr

/-- The straps latched at the end of the last reset (R163, R5). -/
structure Straps where
  sta : BitVec 5
  bd : BitVec 2
  mxs : BitVec 2
  deriving DecidableEq, Repr

/-- What ST returns (R180). -/
structure StatusReport where
  gate : Gate
  cause : CauseRecord
  checkErrors : Nat
  overruns : Nat
  fieldEnabled : Bool
  zones : PerZone (ZoneState × Option Phase)
  alerts : List Alert
  deriving DecidableEq, Repr

/-- One line of an LR reply (R154). -/
structure LineReading where
  latch : Bool
  pin : Bool
  debounced : Bool
  settled : Bool
  timing : Bool
  deriving DecidableEq, Repr

/-- The conditions of the four safe causes as ZR shows them (R144). -/
structure CauseConditions where
  door : Bool
  sensor : Bool
  overtemp : Bool
  proofOverdue : Bool
  deriving DecidableEq, Repr

/-- What ZR returns (R101, R54, R113, R131, R144). Minutes of `startTimeout` and `lapse` are whole, rounded up. -/
structure ZoneReading where
  state : ZoneState
  underlying : Option Phase
  holds : HoldCauses
  holdPending : Bool
  stepIndex : Option (Fin 128)
  stepClock : Nat
  runClock : Nat
  eligible : Option ExitReason
  waiting : Bool
  detached : Bool
  startTimeout : Option Nat
  lastFailure : Option StartFailure
  grouped : Bool
  waitCount : Nat
  activeCopy : Option StepRecord
  aggregate : Aggregate
  dbSetpoint : Option Int
  wbSetpoint : Option Int
  reportedDb : Int
  reportedWb : Int
  rampRate : Nat
  rampInFlight : Bool
  db : SensorRecord
  wb : SensorRecord
  heat : AutoOutput
  spray : AutoOutput
  vent : AutoOutput
  overrides : OverrideTable
  pins : ZonePins
  fan : FanState
  proofRunning : Bool
  fieldEnabled : Bool
  lapse : Option Nat
  causes : SafeCauses
  conditions : CauseConditions
  deriving DecidableEq, Repr

/-- The content that follows the status byte of a reply (R173). -/
inductive Content where
  | none
  | identity (straps : Straps)
  | status (report : StatusReport)
  | alertsLeft (n : Nat)
  | kiln (c : KilnConfig)
  | zoneItem (c : ZoneConfig)
  | group (c : GroupConfig)
  | scan (c : ScanConfig)
  | window (c : WindowConfig)
  | default (c : DefaultProfile)
  | line (c : LineConfig)
  | probe (c : ProbeConfig) (r : Option ProbeRecord)
  | spotPending (entry : Fin 64)
  | spotReading (r : SpotReading)
  | species (g : SpeciesGroup)
  | recordWritten (index : Fin 128)
  | recordRead (index : Fin 128) (r : Option StepRecord)
  | entries (e : PhaseEntries)
  | finding (f : Finding)
  | causes (c : SafeCauses)
  | delayLeft (m : Option Nat)
  | lapseLeft (m : Option Nat)
  | latches (l : Table 16 Bool)
  | lines (l : Table 16 LineReading)
  | zone (r : ZoneReading)
  | runRecord (dropped : Nat) (length : Nat) (page : List RunEntry)
  deriving DecidableEq, Repr

/-- An answer: its status, its content, and whether the request queued a host item (R159). -/
structure Answer where
  status : Status
  content : Content := .none
  stores : Bool := false
  deriving DecidableEq, Repr

/-- The unanswered request (R172), with the reply it is to receive. -/
structure Unanswered where
  /-- The two kind bytes of the request frame. -/
  kind : Byte × Byte
  tag : Nat
  broadcast : Bool
  answer : Answer
  /-- The reply still waits for the write of the request's host item (R173). -/
  awaitsStore : Bool
  /-- The request is an RS that was performed: the reset follows its reply (R162). -/
  resets : Bool
  deriving DecidableEq, Repr

/-- The receiver (R170): HUNT, or FRAME with the bytes collected so far, the sync byte first. -/
inductive Receiver where
  | hunt
  | frame (bytes : List Byte)
  deriving DecidableEq, Repr

/-- The Link Controller's state but for the alert set. -/
structure LinkState where
  receiver : Receiver := .hunt
  txen : Bool := false
  /-- The reply frame being sent while TXEN is asserted. -/
  sending : List Byte := []
  unanswered : Option Unanswered := none
  gate : Gate := .locked
  checkErrors : Nat := 0
  overruns : Nat := 0
  cause : CauseRecord := {}
  /-- An answered RS has still to be followed by its reset (R162). -/
  resetDue : Bool := false
  deriving DecidableEq, Repr

/-! ### The machine -/

/-- Everything below the link. -/
structure Plant where
  straps : Straps
  alerts : List Alert
  /-- ATTN#, asserted when true (R179). -/
  attn : Bool
  work : Working
  store : Nonvolatile
  queue : StoreQueue
  cursor : Fin 128
  zones : PerZone ZoneUnit
  groupTimeout : Timer
  records : Table 64 (Option ProbeRecord)
  frontEnd : FrontEnd
  arbiter : Arbiter
  spot : SpotSlot
  /-- The pins MX0..MX7, bit i for MXi (R6). -/
  mux : BitVec 8
  lines : Table 16 LineState
  delayedStart : Timer
  lapse : Timer
  fieldEnabled : Bool
  deriving DecidableEq, Repr

/-- Whether the part runs, is in reset, or is without supply (R162). -/
inductive Mode where
  | running
  | inReset (kind : ResetKind)
  | off
  deriving DecidableEq, Repr

/-- The whole state. -/
structure State where
  /-- The commands that wait, first in, first out. -/
  pending : List Instr
  mode : Mode
  /-- The part drives RESET# low (R162). -/
  resetDrive : Bool
  link : LinkState
  plant : Plant
  deriving DecidableEq, Repr

/-- The reasons for a fault. The manual names no event that stops the part. -/
inductive Fault where
  /-- Raised by no meaning of this model; the type has one name so that it is not empty. Safe. -/
  | neverRaised
  deriving DecidableEq, Repr

/-- The reasons for a refusal. -/
inductive Refusal where
  /-- A command that has no meaning yet, by its mnemonic; raised by `exec` alone, and by no arm now. Safe. -/
  | notModelled (mnemonic : String)
  deriving DecidableEq, Repr

/-! ### As-delivered content and reset -/

/-- The as-delivered species curve (R31). -/
def SpeciesGroup.delivered : SpeciesGroup :=
  ⟨160, ⟨[300, 240, 196, 160, 131, 107, 88, 73, 62], rfl⟩⟩

/-- The as-delivered configuration (R156, R176). -/
def Configuration.delivered : Configuration where
  kiln := {}
  zones := .all {}
  group := {}
  scan := {}
  windows := .fill 4 {}
  default := {}
  lines := .fill 16 {}

/-- The as-delivered content of the first six sections (R156). -/
def Working.delivered : Working where
  config := .delivered
  probes := .fill 64 {}
  species := .fill 8 .delivered
  records := .fill 128 none
  entries := .all {}
  code := List.replicate 8 0

/-- The store of a part fresh from the factory: every section passes its check (R156). -/
def Nonvolatile.delivered : Nonvolatile where
  configuration := some .delivered
  probeTable := some Working.delivered.probes
  species := some Working.delivered.species
  schedule := some Working.delivered.records
  entryTables := some Working.delivered.entries
  accessCode := some Working.delivered.code
  checkpoints := .all (some {})

/-- A zone of a factory-fresh part right after the end of a reset. Its timers run (R13, R76, R114, R122), and the pass that
starts at the end of the reset has found an empty snapshot and completed, which left the zone blind (R14, R53). -/
def ZoneUnit.afterReset : ZoneUnit where
  ctx := { minuteTimer := some 60000 }
  aggregate := { blind := true }
  climate := { sampleTimer := some 10000 }
  output := { pulseTimer := some 60000 }
  pass := { timer := some 900000 }

/-- The machine right after a power-on reset of a factory-fresh part, with every strap and every line read as LOW (log
entries 1 and 2): the state that the end of the reset, R164, leaves. -/
def State.reset : State where
  pending := []
  mode := .running
  resetDrive := false
  link := { cause := { powerOn := true } }
  plant :=
    { straps := ⟨0, 0, 0⟩
      alerts := [.device .resetSeen]
      attn := true
      work := .delivered
      store := .delivered
      queue := {}
      cursor := 0
      zones := .all .afterReset
      groupTimeout := none
      records := .fill 64 none
      frontEnd := {}
      arbiter := {}
      spot := .empty
      mux := 0
      lines := .fill 16 { timer := some 50 }
      delayedStart := none
      lapse := none
      fieldEnabled := false }

end Sys2Proof.Machine
end

