-- ==== Sys2Proof/Machine/Ops.lean ====
section
/-! DEFINITION. The shared operations: rounding, timers, tables, the alert set, the store write queue, and the frame in
which every event of the part is carried out. -/

namespace Sys2Proof

/-- The zones in order. -/
def Zone.order : List Zone := [.a, .b, .c, .d]

/-- 0..3 (R175). -/
def Zone.code : Zone → Nat
  | .a => 0
  | .b => 1
  | .c => 2
  | .d => 3

end Sys2Proof

namespace Sys2Proof.Machine

/-! ### Rounding and clamping (00_scope, 5.2) -/

/-- `n / d` to the nearest whole number, halves upward, for quantities that cannot be negative. -/
def roundHalfUp (n d : Nat) : Nat := (2 * n + d) / (2 * d)

/-- `n / d` to the nearest whole number, halves away from zero. -/
def roundHalfAway (n : Int) (d : Nat) : Int :=
  if 0 ≤ n then (roundHalfUp n.toNat d : Int) else -(roundHalfUp (-n).toNat d : Int)

/-- `x` set to the nearest bound of `lo..hi`. -/
def clampInt (lo hi x : Int) : Int := max lo (min hi x)

/-- `x` set to the nearest bound of `lo..hi`. -/
def clampNat (lo hi x : Nat) : Nat := max lo (min hi x)

/-- A counter increased by one that stops at `top`. -/
def bump (top n : Nat) : Nat := min top (n + 1)

/-! ### Timers -/

/-- A timer started with `n` minutes. -/
def Timer.minutes (n : Nat) : Timer := some (n * 60000)

/-- A timer started with `n` seconds. -/
def Timer.seconds (n : Nat) : Timer := some (n * 1000)

/-- The remaining whole minutes, rounded up (R128); absent while stopped. -/
def Timer.minutesLeft (t : Timer) : Option Nat := t.map fun ms => (ms + 59999) / 60000

/-- One millisecond passes: a running timer has one less to run, down to 0. -/
def Timer.tick (t : Timer) : Timer := t.map fun ms => ms - 1

/-! ### Zones, tables, phases -/

/-- The phases in order (R59). -/
def Phase.order : List Phase := [.warmup, .drying, .equalize, .condition, .cooldown]

/-- 0..4 (R175). -/
def Phase.code : Phase → Nat
  | .warmup => 0
  | .drying => 1
  | .equalize => 2
  | .condition => 3
  | .cooldown => 4

/-- The later phases of R59, in order. -/
def Phase.later : Phase → List Phase
  | .warmup => [.drying, .equalize, .condition, .cooldown]
  | .drying => [.equalize, .condition, .cooldown]
  | .equalize => [.condition, .cooldown]
  | .condition => [.cooldown]
  | .cooldown => []

/-- The entry record of a phase. -/
def PhaseEntries.get (e : PhaseEntries) : Phase → Option (Fin 128)
  | .warmup => e.warmup
  | .drying => e.drying
  | .equalize => e.equalize
  | .condition => e.condition
  | .cooldown => e.cooldown

/-- The table with `f` applied to one cell. -/
def Table.modify {n : Nat} {α : Type} (t : Table n α) (i : Fin n) (f : α → α) : Table n α := t.set i (f (t.get i))

/-- The table with `f` applied to every cell. -/
def Table.map {n : Nat} {α β : Type} (t : Table n α) (f : α → β) : Table n β :=
  ⟨t.cells.map f, by rw [List.length_map]; exact t.size⟩

/-- The values with `f` applied to one zone's. -/
def PerZone.modify {α : Type} (t : PerZone α) (z : Zone) (f : α → α) : PerZone α := t.set z (f (t.get z))

/-- The value `f z` for every zone `z`. -/
def PerZone.tabulate {α : Type} (f : Zone → α) : PerZone α := ⟨f .a, f .b, f .c, f .d⟩

/-- The plant with one zone's unit changed. -/
def Plant.zone (p : Plant) (z : Zone) (f : ZoneUnit → ZoneUnit) : Plant := { p with zones := p.zones.modify z f }

/-- The unit of a zone. -/
def Plant.unit (p : Plant) (z : Zone) : ZoneUnit := p.zones.get z

/-- The context of a zone. -/
def Plant.ctx (p : Plant) (z : Zone) : ZoneContext := (p.zones.get z).ctx

/-- The ZONE items of a zone. -/
def Plant.items (p : Plant) (z : Zone) : ZoneConfig := p.work.config.zones.get z

/-- The KILN items. -/
def Plant.kiln (p : Plant) : KilnConfig := p.work.config.kiln

/-- The zone's unit with its context changed. -/
def ZoneUnit.withCtx (u : ZoneUnit) (f : ZoneContext → ZoneContext) : ZoneUnit := { u with ctx := f u.ctx }

/-- The plant with one zone's context changed. -/
def Plant.context (p : Plant) (z : Zone) (f : ZoneContext → ZoneContext) : Plant := p.zone z fun u => u.withCtx f

/-- `f` for every zone, in the order A to D: where one event concerns several zones and no rule gives their order, that order is
the model's choice (log entry 32). -/
def Plant.eachZone (p : Plant) (f : Plant → Zone → Plant) : Plant := Zone.order.foldl f p

/-! ### Zone states (R73, R74) -/

/-- The phase of a phase state. -/
def ZoneState.phase? : ZoneState → Option Phase
  | .phase p => some p
  | _ => none

/-- The zone is in a phase state. -/
def ZoneState.inPhase : ZoneState → Bool
  | .phase _ => true
  | _ => false

/-- The zone is in a phase state or in HELD. -/
def ZoneState.runs : ZoneState → Bool
  | .phase _ => true
  | .held => true
  | _ => false

/-- The zone is in a phase state, in HELD or in SAFE: it is watched (R133) and its run clock advances (R74). -/
def ZoneState.watched : ZoneState → Bool
  | .phase _ => true
  | .held => true
  | .safe => true
  | _ => false

/-- The zone is in STARTING, in a phase state, in HELD or in SAFE: it guards records (R65, R74). -/
def ZoneState.guards : ZoneState → Bool
  | .starting => true
  | s => s.watched

/-- The zone is IDLE, DONE or RESUME_PENDING. -/
def ZoneState.atRest (s : ZoneState) : Bool := !s.guards

/-- The phase of a zone in a phase state, and the underlying phase of one in HELD or SAFE. -/
def ZoneContext.currentPhase (c : ZoneContext) : Option Phase :=
  match c.state with
  | .phase p => some p
  | .held => c.underlying
  | .safe => c.underlying
  | _ => none

/-- The hold-cause set is not empty. -/
def HoldCauses.any (h : HoldCauses) : Bool := h.host || h.line

/-- The safe-cause set is not empty. -/
def SafeCauses.any (c : SafeCauses) : Bool := c.door || c.sensor || c.fan || c.overtemp

/-! ### The alert set (R179) -/

/-- The scope code and kind code of a zone alert. -/
def ZoneAlert.code : ZoneAlert → Nat
  | .stepAdvanced => 0
  | .phaseChanged => 1
  | .forcedAdvance => 2
  | .runDone => 3
  | .startFailed => 4
  | .probeFailed => 5
  | .probeShortage => 6
  | .safeEntered => 7
  | .targetClamped => 8
  | .groupDetached => 9
  | .resumeWaiting => 10
  | .checkpointLost => 11

/-- The kind code of a device alert. -/
def DeviceAlert.code : DeviceAlert → Nat
  | .resetSeen => 0
  | .overrideLapsed => 1
  | .storeDefaulted => 2
  | .unreachableProbes => 3

/-- The scope code: a zone's own, and 4 for DEVICE. -/
def Alert.scopeCode : Alert → Nat
  | .zone z _ => z.code
  | .device _ => 4

/-- The kind code within the scope. -/
def Alert.kindCode : Alert → Nat
  | .zone _ k => k.code
  | .device k => k.code

/-- The order of the pairs in an ST reply: by scope, then by kind code (R180). -/
def Alert.rank (a : Alert) : Nat := a.scopeCode * 16 + a.kindCode

/-- An alert put in its place among alerts of rising rank; a pair already present is not added again. -/
def insertAlert (a : Alert) : List Alert → List Alert
  | [] => [a]
  | x :: xs => if a.rank < x.rank then a :: x :: xs else if a.rank = x.rank then x :: xs else x :: insertAlert a xs

/-- A block raises a pair (R179). -/
def Plant.raise (p : Plant) (a : Alert) : Plant := { p with alerts := insertAlert a p.alerts }

/-! ### The store write queue (R158, R161) -/

/-- The content that a host item writes: its section's working copy (R158). -/
def Working.content (w : Working) : SectionName → SectionContent
  | .configuration => .configuration w.config
  | .probeTable => .probeTable w.probes
  | .species => .species w.species
  | .schedule => .schedule w.records
  | .entryTables => .entryTables w.entries
  | .accessCode => .accessCode w.code

/-- The write that an item begins. -/
def Working.begin (w : Working) : StoreItem → StoreWrite
  | .host s => .host (w.content s)
  | .checkpoint z c => .checkpoint z c

/-- The waiting list with a checkpoint item of `z`: in the place of a waiting one of the same zone, else at the end (R161). -/
def placeCheckpoint (z : Zone) (c : Checkpoint) : List StoreItem → List StoreItem
  | [] => [.checkpoint z c]
  | .checkpoint y d :: xs => if y = z then .checkpoint z c :: xs else .checkpoint y d :: placeCheckpoint z c xs
  | .host s :: xs => .host s :: placeCheckpoint z c xs

/-- An item is queued (R158): with nothing in flight its write begins at once. -/
def Plant.enqueue (p : Plant) (item : StoreItem) : Plant :=
  match p.queue.inFlight with
  | none => { p with queue := { p.queue with inFlight := some (p.work.begin item) } }
  | some _ =>
    { p with
      queue :=
        { p.queue with
          waiting :=
            match item with
            | .host s => p.queue.waiting ++ [.host s]
            | .checkpoint z c => placeCheckpoint z c p.queue.waiting } }

/-- The store with one write completed: its section holds the content and passes its check. -/
def Nonvolatile.write (n : Nonvolatile) : StoreWrite → Nonvolatile
  | .host (.configuration c) => { n with configuration := some c }
  | .host (.probeTable t) => { n with probeTable := some t }
  | .host (.species t) => { n with species := some t }
  | .host (.schedule t) => { n with schedule := some t }
  | .host (.entryTables t) => { n with entryTables := some t }
  | .host (.accessCode b) => { n with accessCode := some b }
  | .checkpoint z c => { n with checkpoints := n.checkpoints.set z (some c) }

/-- The store with one write cut: its section fails its check (R162). -/
def Nonvolatile.cut (n : Nonvolatile) : StoreWrite → Nonvolatile
  | .host (.configuration _) => { n with configuration := none }
  | .host (.probeTable _) => { n with probeTable := none }
  | .host (.species _) => { n with species := none }
  | .host (.schedule _) => { n with schedule := none }
  | .host (.entryTables _) => { n with entryTables := none }
  | .host (.accessCode _) => { n with accessCode := none }
  | .checkpoint z _ => { n with checkpoints := n.checkpoints.set z none }

/-- The recorded state of a zone (R160): SAFE is recorded as HELD over the underlying phase. -/
def ZoneContext.recorded (c : ZoneContext) : RecordedState :=
  match c.state, c.underlying with
  | .phase p, _ => .phase p
  | .held, some p => .held p
  | .safe, some p => .held p
  | .done, _ => .done
  | _, _ => .idle

/-- The checkpoint of a zone as it stands (R160). -/
def ZoneUnit.checkpoint (u : ZoneUnit) : Checkpoint where
  recorded := u.ctx.recorded
  step := u.ctx.stepIndex
  stepClock := u.ctx.stepClock
  runClock := u.ctx.runClock
  detached := u.ctx.detached
  hostHold := u.ctx.holds.host
  direction := u.output.fan.direction

/-- The zone's checkpoint is queued, and its checkpoint count becomes 0 (R100, R161). -/
def Plant.queueCheckpoint (p : Plant) (z : Zone) : Plant :=
  (p.enqueue (.checkpoint z (p.unit z).checkpoint)).context z fun c => { c with checkpointCount := 0 }

/-- The write in flight completes: the store takes its content, and the oldest waiting item begins its write (R158). -/
def Plant.completeWrite (p : Plant) : Plant :=
  match p.queue.inFlight with
  | none => p
  | some w =>
    { p with
      store := p.store.write w
      queue :=
        match p.queue.waiting with
        | [] => { inFlight := none, waiting := [] }
        | x :: xs => { inFlight := some (p.work.begin x), waiting := xs } }

/-! ### The run record (R97) -/

/-- An entry appended to a run record: the oldest goes first from a record that holds 48. -/
def ZoneContext.append (c : ZoneContext) (e : RunEntry) : ZoneContext :=
  if c.runRecord.length < 48 then { c with runRecord := c.runRecord ++ [e] }
  else { c with runRecord := c.runRecord.drop 1 ++ [e], dropped := bump 65535 c.dropped }

/-- The entry that an event of kind `k` adds, from the zone as it stands (R97). -/
def ZoneUnit.entry (u : ZoneUnit) (k : RunKind) (reason : Option ExitReason) : RunEntry where
  kind := k
  minute := u.ctx.runClock
  step := u.ctx.stepIndex
  reason := reason
  cmc := u.aggregate.cmc
  dmc := u.aggregate.dmc

/-- The run record entry of an event is added (R98). -/
def Plant.record (p : Plant) (z : Zone) (k : RunKind) (reason : Option ExitReason := none) : Plant :=
  p.context z fun c => c.append ((p.unit z).entry k reason)

end Sys2Proof.Machine
end

