-- ==== Sys2Proof/Machine/Operands.lean ====
section
/-! DEFINITION. The operand forms of the requests: from the whole numbers of a payload to the values they name (R175).
`none` is an undefined value, which the owner refuses BAD_VALUE (R174). -/

namespace Sys2Proof.Machine

/-- Zones A..D are 0..3. -/
def zoneOf : Nat → Option Zone
  | 0 => some .a
  | 1 => some .b
  | 2 => some .c
  | 3 => some .d
  | _ => none

/-- An index below `n`. -/
def indexOf (n : Nat) (x : Nat) : Option (Fin n) := if h : x < n then some ⟨x, h⟩ else none

/-- "yes, no" and "on, off" fields: the first value listed is 0 (log entry 9). -/
def yesNoOf : Nat → Option Bool
  | 0 => some true
  | 1 => some false
  | _ => none

/-- An optional value: absent, or present with a defined value. A presence byte above 1 is undefined. -/
def optionOf {α : Type} (f : Nat → Option α) (r : RawOption) : Option (Option α) :=
  match r.presence with
  | 0 => some none
  | 1 => (f r.value).map some
  | _ => none

/-- MOISTURE or WOOD_TEMP (R1). -/
def probeKindOf : Nat → Option ProbeKind
  | 0 => some .moisture
  | 1 => some .woodTemp
  | _ => none

/-- OPEN or CLOSED (R176). -/
def safeVentOf : Nat → Option SafeVent
  | 0 => some .open
  | 1 => some .closed
  | _ => none

/-- RUN or STOP (R176). -/
def safeFanOf : Nat → Option SafeFan
  | 0 => some .run
  | 1 => some .stop
  | _ => none

/-- EQUAL or FAVOR (R19). -/
def scanModeOf : Nat → Option ScanMode
  | 0 => some .equal
  | 1 => some .favor
  | _ => none

/-- The roles in the order of R146. -/
def lineRoleOf : Nat → Option LineRole
  | 0 => some .none
  | 1 => some .door
  | 2 => some .fanProof
  | 3 => some .startButton
  | 4 => some .holdIn
  | 5 => some .alarmOut
  | 6 => some .generalIn
  | 7 => some .generalOut
  | _ => none

/-- ACTIVE_HIGH or ACTIVE_LOW (R146). -/
def polarityOf : Nat → Option Polarity
  | 0 => some .activeHigh
  | 1 => some .activeLow
  | _ => none

/-- ACTIVE or INACTIVE (R146). -/
def activeOf : Nat → Option Bool
  | 0 => some true
  | 1 => some false
  | _ => none

/-- USED or NOT_USED (R56). -/
def sensorUseOf : Nat → Option SensorUse
  | 0 => some .used
  | 1 => some .notUsed
  | _ => none

/-- A subset of {HOST, LINE, TIMER}, least significant bit first (R175). -/
def startMaskOf (n : Nat) : Option StartMask :=
  if n < 8 then some ⟨n.testBit 0, n.testBit 1, n.testBit 2⟩ else none

/-- A subset of {DOOR, FAN, PROBES}, least significant bit first (R175). -/
def preconditionMaskOf (n : Nat) : Option PreconditionMask :=
  if n < 8 then some ⟨n.testBit 0, n.testBit 1, n.testBit 2⟩ else none

/-- A sample count is 1, 2, 4, 8 or 16 (R176). -/
def sampleCountOk (n : Nat) : Bool := n == 1 || n == 2 || n == 4 || n == 8 || n == 16

/-- The outputs of an override, in the order of R127. -/
inductive OverrideOutput where
  | heat | spray | vent | fanRun | fanDir
  deriving DecidableEq, Repr

/-- HEAT, SPRAY, VENT, FAN-RUN, FAN-DIR are 0..4. -/
def overrideOutputOf : Nat → Option OverrideOutput
  | 0 => some .heat
  | 1 => some .spray
  | 2 => some .vent
  | 3 => some .fanRun
  | 4 => some .fanDir
  | _ => none

/-- OV carries 1 for ON and 2 for OFF; AUTO is not a defined value (R127). -/
def overrideValueOf : Nat → Option OverrideEntry
  | 1 => some .on
  | 2 => some .off
  | _ => none

/-- The zone kinds by their code (R179). -/
def zoneAlertOf : Nat → Option ZoneAlert
  | 0 => some .stepAdvanced
  | 1 => some .phaseChanged
  | 2 => some .forcedAdvance
  | 3 => some .runDone
  | 4 => some .startFailed
  | 5 => some .probeFailed
  | 6 => some .probeShortage
  | 7 => some .safeEntered
  | 8 => some .targetClamped
  | 9 => some .groupDetached
  | 10 => some .resumeWaiting
  | 11 => some .checkpointLost
  | _ => none

/-- The device kinds by their code (R179). -/
def deviceAlertOf : Nat → Option DeviceAlert
  | 0 => some .resetSeen
  | 1 => some .overrideLapsed
  | 2 => some .storeDefaulted
  | 3 => some .unreachableProbes
  | _ => none

/-- A pair of scope code and kind code (R179). -/
def alertOf (pair : Nat × Nat) : Option Alert :=
  if pair.1 = 4 then (deviceAlertOf pair.2).map .device
  else
    match zoneOf pair.1, zoneAlertOf pair.2 with
    | some z, some k => some (.zone z k)
    | _, _ => none

/-- Every pair of an AK, when all are defined (R181). -/
def alertsOf : List (Nat × Nat) → Option (List Alert)
  | [] => some []
  | x :: xs =>
    match alertOf x, alertsOf xs with
    | some a, some as => some (a :: as)
    | _, _ => none

/-- The bits of a set of the sixteen lines, bit i for Li (R175). -/
def lineBits (n : Nat) : Table 16 Bool := Table.tabulate 16 fun i => n.testBit i.val

/-- A PW's configuration, when check 1 of R2 passes. -/
def probeConfigOf (r : RawProbe) : Option ProbeConfig :=
  match optionOf zoneOf r.zone, probeKindOf r.kind, indexOf 4 r.bank, indexOf 64 r.position, indexOf 8 r.group,
    optionOf (indexOf 64) r.source with
  | some zone, some kind, some bank, some position, some group, some source =>
    some { zone := zone, kind := kind, bank := bank, position := position, group := group, source := source }
  | _, _, _, _, _, _ => none

/-- The record an SW offers, when every check of R58 passes. -/
def stepRecordOf (r : RawStep) : Option StepRecord :=
  match yesNoOf r.last, sensorUseOf r.sensor with
  | some last, some sensor =>
    if 0 ≤ r.db ∧ r.db ≤ 1200 ∧ 0 ≤ r.depression ∧ r.depression ≤ 400 ∧ r.depression ≤ r.db ∧ r.rampRate ≤ 200 ∧
        r.mcThreshold ≤ 999 ∧ r.minTime ≤ 60000 ∧ 1 ≤ r.maxTime ∧ r.maxTime ≤ 60000 ∧ r.minTime ≤ r.maxTime ∧
        (r.fanInterval = 0 ∨ (30 ≤ r.fanInterval ∧ r.fanInterval ≤ 720)) then
      some
        { last := last
          db := r.db
          depression := r.depression
          rampRate := r.rampRate
          mcThreshold := r.mcThreshold
          sensor := sensor
          minTime := r.minTime
          maxTime := r.maxTime
          fanInterval := r.fanInterval }
    else none
  | _, _ => none

/-- The five fields of an EW, when each is 0..127 or NONE (R61). -/
def entriesOf (r : RawEntries) : Option PhaseEntries :=
  match optionOf (indexOf 128) r.warmup, optionOf (indexOf 128) r.drying, optionOf (indexOf 128) r.equalize,
    optionOf (indexOf 128) r.condition, optionOf (indexOf 128) r.cooldown with
  | some w, some d, some e, some c, some f => some ⟨w, d, e, c, f⟩
  | _, _, _, _, _ => none

/-- The nine knots do not increase and none is above 999 (R31, R32). -/
def knotsOk : List Nat → Bool
  | [] => true
  | [x] => x ≤ 999
  | x :: y :: rest => x ≤ 999 && y ≤ x && knotsOk (y :: rest)

/-- A GW's group fields, when R32 finds nothing to refuse. -/
def speciesOf (k : Nat) (knots : List Nat) : Option SpeciesGroup :=
  if h : knots.length = 9 then if k ≤ 500 ∧ knotsOk knots = true then some ⟨k, ⟨knots, h⟩⟩ else none else none

/-! ### Configuration items: check 1 and the clamping of check 3 (R176) -/

/-- A clamped value and whether the clamp moved it. -/
def clampedNat (lo hi x : Nat) : Nat × Bool := (clampNat lo hi x, clampNat lo hi x != x)

/-- A clamped value and whether the clamp moved it. -/
def clampedInt (lo hi x : Int) : Int × Bool := (clampInt lo hi x, clampInt lo hi x != x)

/-- CW KILN: the item it writes and whether a field was clamped, when check 1 passes. -/
def kilnOf (r : RawKiln) : Option (KilnConfig × Bool) :=
  match safeVentOf r.safeVent, safeFanOf r.safeFan with
  | some vent, some fan =>
    let maxDb := clampedInt 400 1200 r.maximumDb
    let margin := clampedInt 10 100 r.overtempMargin
    let start := clampedNat 1 120 r.startTimeout
    let lapse := clampedNat 1 60 r.overrideTimeout
    some (⟨maxDb.1, margin.1, vent, fan, start.1, lapse.1⟩, maxDb.2 || margin.2 || start.2 || lapse.2)
  | _, _ => none

/-- CW ZONE: the item it writes and whether a field was clamped, when check 1 passes. -/
def zoneItemsOf (r : RawZone) : Option (ZoneConfig × Bool) :=
  match startMaskOf r.startMask, preconditionMaskOf r.preconditionMask, yesNoOf r.grouped, yesNoOf r.autoResume with
  | some mask, some pre, some grouped, some auto =>
    let pass := clampedNat 1 60 r.passInterval
    let k := clampedNat 1 8 r.k
    let nmin := clampedNat 1 16 r.nmin
    let jump := clampedNat 0 100 r.jumpLimit
    let fail := clampedNat 1 15 r.failCount
    let heat := clampedInt 5 200 r.pbHeat
    let hum := clampedInt 5 200 r.pbHum
    let pulse := clampedNat 10 600 r.pulsePeriod
    let proof := clampedNat 5 120 r.proofDelay
    let dwell := clampedNat 10 300 r.dwell
    let warm := clampedInt 5 100 r.warmupTolerance
    let spread := clampedNat 1 100 r.equalizeSpread
    some
      ({ passInterval := pass.1
         k := k.1
         nmin := nmin.1
         jumpLimit := jump.1
         failCount := fail.1
         pbHeat := heat.1
         pbHum := hum.1
         pulsePeriod := pulse.1
         proofDelay := proof.1
         dwell := dwell.1
         warmupTolerance := warm.1
         equalizeSpread := spread.1
         startMask := mask
         preconditions := pre
         grouped := grouped
         autoResume := auto },
        pass.2 || k.2 || nmin.2 || jump.2 || fail.2 || heat.2 || hum.2 || pulse.2 || proof.2 || dwell.2 || warm.2 ||
          spread.2)
  | _, _, _, _ => none

/-- CW WINDOW: the item it writes and whether a field was clamped, when check 1 passes (R8). -/
def windowOf (r : RawWindow) : Option (WindowConfig × Bool) :=
  match yesNoOf r.switchSettle, sampleCountOk r.samples with
  | some switch, true =>
    let bank := clampedNat 0 3 r.bank
    let first := clampedNat 0 63 r.first
    let count := clampedNat 0 64 r.count
    let settle := clampedNat 10 2000 r.settle
    some (⟨bank.1, first.1, count.1, settle.1, r.samples, switch⟩, bank.2 || first.2 || count.2 || settle.2)
  | _, _ => none

/-- CW LINE: the item it writes and whether the debounce code was clamped, when check 1 passes (R146). -/
def lineOf (r : RawLine) : Option (LineConfig × Bool) :=
  match lineRoleOf r.role, zoneOf r.zone, polarityOf r.polarity, activeOf r.safeLevel, yesNoOf r.keep with
  | some role, some zone, some polarity, some safe, some keep =>
    let code := clampedNat 0 7 r.debounce
    some (⟨role, zone, polarity, code.1, safe, keep⟩, code.2)
  | _, _, _, _, _ => none

end Sys2Proof.Machine
end

