-- ==== Sys2Proof/Machine/Moisture.lean ====
section
/-! DEFINITION. Chapter 2: raw classification, the temperature source cascade, the correction to 20.0 degrees, the species
curve and the flags. -/

namespace Sys2Proof.Machine

/-- A moisture or temperature reading: the value with its flags (R24). -/
structure Reading where
  value : Int
  flags : MoistureFlags
  deriving DecidableEq, Repr

/-- Raw classification by kind (R25, R26). -/
def classify : ProbeKind → Int → Classification
  | .moisture, l => if l < 160 then .short else if 832 < l then .open else .inRange
  | .woodTemp, t => if t < -300 then .open else if 1400 < t then .short else .inRange

/-- The states in which an entry counts in the aggregate and serves as a temperature source (R39). -/
def ProbeState.counts : ProbeState → Bool
  | .valid => true
  | .held => true
  | _ => false

/-- Step 1 of the cascade: the named source (R28). -/
def Plant.sourceTemperature (p : Plant) (c : ProbeConfig) : Option Int :=
  match c.source with
  | none => none
  | some j =>
    let source := p.work.probes.get j
    if source.zone.isSome && source.kind == .woodTemp then
      match p.records.get j with
      | some r => if r.state.counts then r.lastAccepted else none
      | none => none
    else none

/-- A sensor's measured value when it is usable (R114). -/
def SensorRecord.usable (r : SensorRecord) : Option Int := if r.status = .good then r.value else none

/-- The cascade: the temperature T before its clamp, and whether step 4 supplied it (R27 to R29). -/
def Plant.cascade (p : Plant) (c : ProbeConfig) : Int × Bool :=
  match p.sourceTemperature c with
  | some t => (t, false)
  | none =>
    match c.zone with
    | none => (200, true)
    | some z =>
      match (p.unit z).aggregate.zwt with
      | some t => (t, false)
      | none =>
        match (p.unit z).climate.db.usable with
        | some t => (t, false)
        | none => (200, true)

/-- L20, the code corrected to 20.0 degrees (R30). -/
def correctCode (k : Nat) (l t : Int) : Int := clampInt 0 1023 (l + roundHalfAway (k * (t - 200)) 1000)

/-- The MC at knot `j`. -/
def SpeciesGroup.knot (g : SpeciesGroup) (j : Nat) : Nat := g.knots.cells.getD j 0

/-- The MC read from a species curve at L20 (R35). -/
def SpeciesGroup.read (g : SpeciesGroup) (l20 : Int) : Int :=
  if l20 ≤ 256 then g.knot 0
  else if 768 ≤ l20 then g.knot 8
  else
    let n := (l20 - 256).toNat
    let j := n / 64
    let f := n % 64
    (g.knot j : Int) - roundHalfUp ((g.knot j - g.knot (j + 1)) * f) 64

/-- The reading of an in-range L code of an entry (R27 to R36). -/
def Plant.convert (p : Plant) (c : ProbeConfig) (l : Int) : Reading :=
  let g := p.work.species.get c.group
  let t := p.cascade c
  let l20 := correctCode g.k l (clampInt (-200) 1200 t.1)
  { value := g.read l20
    flags := { aboveRange := l20 < 256, belowRange := 768 < l20, uncorrected := t.2 } }

/-- The reading of an in-range result of an entry: converted, or the clamped temperature (R24, R26). -/
def Plant.readingOf (p : Plant) (c : ProbeConfig) (kind : ProbeKind) (raw : Int) : Reading :=
  match kind with
  | .moisture => p.convert c raw
  | .woodTemp => { value := clampInt (-200) 1200 raw, flags := {} }

/-- The averaged result of `n` samples (R11): each sample within the converter's range, their mean rounded by kind. -/
def average (kind : ProbeKind) (n : Nat) (samples : List Int) : Int :=
  match kind with
  | .moisture => roundHalfAway ((samples.take n).map (clampInt 0 1023)).sum n
  | .woodTemp => roundHalfAway ((samples.take n).map (clampInt (-400) 1500)).sum n

/-- An MC value clamped between a curve's last and first knot (R33). -/
def SpeciesGroup.clamp (g : SpeciesGroup) (mc : Int) : Int := clampInt (g.knot 8) (g.knot 0) mc

/-- A record with its MC values clamped to a curve (R33). -/
def ProbeRecord.clampTo (r : ProbeRecord) (g : SpeciesGroup) : ProbeRecord :=
  { r with lastAccepted := r.lastAccepted.map g.clamp, candidate := r.candidate.map g.clamp }

end Sys2Proof.Machine
end

