-- ==== Sys2Proof/Machine/Judgement.lean ====
section
/-! DEFINITION. Chapter 3: the runtime records (R38 to R47) and the zone aggregate (R49 to R53). -/

namespace Sys2Proof.Machine

/-! ### Judging a result -/

/-- Acceptance of a reading (R43), at a run minute that R45 gives. -/
def ProbeRecord.accept (r : ProbeRecord) (x : Reading) (minute : Option Nat) : ProbeRecord :=
  { r with
    state := .valid
    lastAccepted := some x.value
    flags := x.flags
    candidate := none
    heldCount := 0
    failStreak := 0
    runMinute := minute }

/-- Case 4 of the jump rule (R44). -/
def ProbeRecord.holdBack (r : ProbeRecord) (x : Reading) : ProbeRecord :=
  { r with state := .held, heldCount := r.heldCount + 1, candidate := some x.value }

/-- Two values lie within `j` of each other. -/
def within (j : Nat) (x y : Int) : Bool := (x - y).natAbs ≤ j

/-- The reading is accepted under the jump rule with limit `j` (R43, R44). -/
def ProbeRecord.accepts (r : ProbeRecord) (j : Nat) (x : Int) : Bool :=
  if j = 0 || !r.state.counts then true
  else
    match r.lastAccepted with
    | none => true
    | some v =>
      within j x v ||
      (r.state == .held && (match r.candidate with | some c => within j x c | none => false)) ||
      r.heldCount + 1 == 3

/-- An in-range reading judged (R43, R44). -/
def ProbeRecord.judgeReading (r : ProbeRecord) (j : Nat) (x : Reading) (minute : Option Nat) : ProbeRecord :=
  if r.accepts j x.value then r.accept x minute else r.holdBack x

/-- A SHORT or OPEN outcome with fail count `n` (R41, R42). -/
def ProbeRecord.fail (r : ProbeRecord) (n : Nat) (s : ProbeState) : ProbeRecord :=
  { r with
    state := if n ≤ r.failStreak + 1 then .failed else s
    failStreak := r.failStreak + 1
    heldCount := 0
    candidate := none }

/-- The run minute of an acceptance (R45). -/
def ZoneContext.acceptanceMinute (c : ZoneContext) : Option Nat :=
  if c.state.watched then some c.runClock else none

/-- Stage 3 of R24 for an entry of zone `z` (R40 to R45). -/
def Plant.judge (p : Plant) (z : Zone) (i : Fin 64) (kind : ProbeKind) (raw : Int) : Plant :=
  match p.records.get i with
  | none => p
  | some r0 =>
    let r := { r0 with lastRaw := some raw }
    let items := p.items z
    let put (x : ProbeRecord) : Plant := { p with records := p.records.set i (some x) }
    let failed (s : ProbeState) : Plant :=
      let x := r.fail items.failCount s
      if x.state = .failed then (put x).raise (.zone z .probeFailed) else put x
    match classify kind raw with
    | .short => failed .short
    | .open => failed .open
    | .inRange =>
      put
        (r.judgeReading items.jumpLimit (p.readingOf (p.work.probes.get i) kind raw)
          (p.ctx z).acceptanceMinute)

/-! ### The zone aggregate -/

/-- An entry of the valid set, with its last accepted value and its ABOVE_RANGE flag (R50). -/
structure Ranked where
  entry : Fin 64
  value : Int
  aboveRange : Bool
  deriving DecidableEq, Repr

/-- The entries of a zone of one kind whose state is VALID or HELD, in entry order, each with its last accepted value. -/
def Plant.counted (p : Plant) (z : Zone) (kind : ProbeKind) : List Ranked :=
  (List.finRange 64).filterMap fun i =>
    let c := p.work.probes.get i
    if c.zone = some z ∧ c.kind = kind then
      match p.records.get i with
      | some r =>
        if r.state.counts then r.lastAccepted.map fun v => ⟨i, v, r.flags.aboveRange⟩ else none
      | none => none
    else none

/-- An entry put in its place: by descending value, among equal values the one already there first (R50). -/
def insertRanked (x : Ranked) : List Ranked → List Ranked
  | [] => [x]
  | y :: ys => if y.value < x.value then x :: y :: ys else y :: insertRanked x ys

/-- The ranking of R50; the entries come in rising index, so the lower index ranks first among equals. -/
def rank (xs : List Ranked) : List Ranked := xs.foldl (fun acc x => insertRanked x acc) []

/-- The lowest value of a list. -/
def lowest : List Ranked → Option Int
  | [] => none
  | x :: xs =>
    match lowest xs with
    | none => some x.value
    | some v => some (min x.value v)

/-- The aggregate of a zone from its records as they stand (R49 to R53). -/
def Plant.formAggregate (p : Plant) (z : Zone) : Aggregate :=
  let items := p.items z
  let valid := p.counted z .moisture
  let wood := p.counted z .woodTemp
  let blind : Bool := valid.length < items.nmin
  let contributing := if blind then [] else (rank valid).take items.k
  { count := valid.length
    cmc :=
      if contributing.isEmpty then none
      else
        some
          { value := roundHalfAway (contributing.map Ranked.value).sum contributing.length
            aboveRange := contributing.any Ranked.aboveRange }
    dmc := lowest valid
    contributing := contributing.map Ranked.entry
    zwt := if wood.isEmpty then none else some (roundHalfAway (wood.map Ranked.value).sum wood.length)
    blind := blind }

/-- The aggregate replaced at a pass complete, with PROBE_SHORTAGE (R49, R53). -/
def Plant.replaceAggregate (p : Plant) (z : Zone) : Plant :=
  let new := p.formAggregate z
  let q := p.zone z fun u => { u with aggregate := new }
  if !(p.unit z).aggregate.blind && new.blind && (p.ctx z).state != .idle then q.raise (.zone z .probeShortage) else q

/-! ### Exclusion and reinstatement -/

/-- The effect of PX on a record (R46). -/
def ProbeRecord.exclude (r : ProbeRecord) : ProbeRecord :=
  { r with state := .excluded, heldCount := 0, candidate := none }

/-- The effect of PI on a record (R47). -/
def ProbeRecord.reinstate (r : ProbeRecord) : ProbeRecord :=
  { r with state := .unseen, failStreak := 0, heldCount := 0, candidate := none }

end Sys2Proof.Machine
end

