-- ==== Sys2Proof/Machine/Flags.lean ====
section
/-! DEFINITION. The levels that follow from the rest of the state: the line conditions (R150), the output line pins (R151),
the zone pins (R129), the proof timers (R126, R137) and ATTN# (R179). `settle` brings them up to date at the end of every
event. -/

namespace Sys2Proof.Machine

/-! ### Discrete lines -/

/-- The role makes the line an output (R147). -/
def LineRole.isOutput : LineRole → Bool
  | .alarmOut => true
  | .generalOut => true
  | _ => false

/-- The level ACTIVE that corresponds to a pin level, and the pin level that corresponds to ACTIVE or INACTIVE (R146). -/
def Polarity.convert (p : Polarity) (level : Bool) : Bool :=
  match p with
  | .activeHigh => level
  | .activeLow => !level

/-- The configuration of a line. -/
def Plant.lineItems (p : Plant) (i : Fin 16) : LineConfig := p.work.config.lines.get i

/-- Some line for which `f` holds stands at its active debounced level. -/
def Plant.anyLine (p : Plant) (f : LineConfig → Bool) : Bool :=
  (List.finRange 16).any fun i => f (p.lineItems i) && (p.lines.get i).debounced

/-- The door condition (R134, R150). -/
def Plant.doorOpen (p : Plant) : Bool := p.anyLine fun c => c.role == .door

/-- Proof of a zone is present (R150). -/
def Plant.proof (p : Plant) (z : Zone) : Bool := p.anyLine fun c => c.role == .fanProof && c.zone == z

/-- HOLD_IN is active (R90, R150). -/
def Plant.holdIn (p : Plant) : Bool := p.anyLine fun c => c.role == .holdIn

/-- The ACTIVE or INACTIVE level that an output line drives (R151). -/
def Plant.driveLevel (p : Plant) (i : Fin 16) : Bool :=
  if p.fieldEnabled || (p.lineItems i).keep then (p.lines.get i).latch else (p.lineItems i).safeActive

/-- A line with its pin as it follows from the rest (R147, R151): an output pin is driven and its debounced level goes with
the drive; an input pin stands at the level applied from outside. -/
def Plant.settledLine (p : Plant) (i : Fin 16) : LineState :=
  let c := p.lineItems i
  let l := p.lines.get i
  if c.role.isOutput then
    { l with
      pin := c.polarity.convert (p.driveLevel i)
      debounced := p.driveLevel i
      settled := true
      timer := none }
  else { l with pin := l.external }

/-! ### Zone pins (R129) -/

/-- The zone is in SAFE. -/
def ZoneUnit.inSafe (u : ZoneUnit) : Bool := u.ctx.state == .safe

/-- The level of an overridden output, and the given level where its entry is AUTO. -/
def OverrideEntry.over (e : OverrideEntry) (level : Bool) : Bool :=
  match e with
  | .auto => level
  | .on => true
  | .off => false

/-- Automatic fan run (R124). -/
def FanMachine.runs : FanMachine → Bool
  | .runFwd => true
  | .runRev => true
  | _ => false

/-- The fan is in dwell (R125). -/
def FanMachine.dwells : FanMachine → Bool
  | .dwellToRev => true
  | .dwellToFwd => true
  | _ => false

/-- The HEAT row of R129. -/
def ZoneUnit.heatLevel (field : Bool) (u : ZoneUnit) : Bool :=
  if u.inSafe || !field then false else u.output.overrides.heat.over u.output.heat.level

/-- The SPRAY row of R129. -/
def ZoneUnit.sprayLevel (field : Bool) (u : ZoneUnit) : Bool :=
  if u.inSafe || !field then false
  else if u.output.overrides.spray ≠ .auto then u.output.overrides.spray.over false
  else if u.output.overrides.vent = .on then false
  else u.output.spray.level

/-- The VENT row of R129. -/
def ZoneUnit.ventLevel (field : Bool) (safeVent : SafeVent) (u : ZoneUnit) : Bool :=
  if !field then false
  else if u.output.overrides.vent ≠ .auto then u.output.overrides.vent.over false
  else if u.inSafe then safeVent == .open
  else if u.output.overrides.spray = .on then false
  else u.output.vent.level

/-- The FAN-RUN row of R129. -/
def ZoneUnit.fanRunLevel (field : Bool) (u : ZoneUnit) : Bool :=
  if !field then false else u.output.overrides.fanRun.over u.output.fan.machine.runs

/-- The FAN-DIR row of R129; reverse is true. -/
def ZoneUnit.fanDirLevel (field : Bool) (u : ZoneUnit) : Bool :=
  if !field then false else u.output.overrides.fanDir.over (u.output.fan.direction == .reverse)

/-- The five pins of a zone (R129). -/
def ZoneUnit.levels (field : Bool) (safeVent : SafeVent) (u : ZoneUnit) : ZonePins where
  heat := u.heatLevel field
  spray := u.sprayLevel field
  vent := u.ventLevel field safeVent
  fanRun := u.fanRunLevel field
  fanDir := u.fanDirLevel field

/-! ### The proof timer (R126, R137) -/

/-- The condition under which the proof timer of a zone should run (R126). -/
def Plant.shouldRun (p : Plant) (z : Zone) : Bool :=
  (p.unit z).fanRunLevel p.fieldEnabled && !(p.unit z).output.fan.machine.dwells && !p.proof z

/-- The zone's proof timer started with the zone's proof delay; its start clears the overdue mark (R126, R137). -/
def Plant.startProof (p : Plant) (z : Zone) : Plant :=
  p.zone z fun u =>
    { u with
      proofOverdue := false
      output := { u.output with proofTimer := Timer.seconds (p.items z).proofDelay } }

/-- The zone's proof timer stopped, which clears the overdue mark (R126, R137). -/
def Plant.stopProof (p : Plant) (z : Zone) : Plant :=
  p.zone z fun u => { u with proofOverdue := false, output := { u.output with proofTimer := none } }

/-- The proof timer of a zone at the end of an event that led from `before` to `after` (R126). -/
def settleProof (before : Plant) (after : Plant) (z : Zone) : Plant :=
  match before.shouldRun z, after.shouldRun z with
  | false, true => after.startProof z
  | true, false => after.stopProof z
  | _, _ => after

/-! ### The end of an event -/

/-- The zone with its pins at their levels. -/
def Plant.settlePins (p : Plant) : Plant :=
  { p with
    attn := !p.alerts.isEmpty
    lines := Table.tabulate 16 p.settledLine
    zones := PerZone.tabulate fun z =>
      let u := p.unit z
      { u with output := { u.output with pins := u.levels p.fieldEnabled p.kiln.safeVent } } }

/-- The plant at the end of an event that led from `before` to `after`: every proof timer, pin and ATTN# follows. -/
def settle (before after : Plant) : Plant := (after.eachZone (settleProof before)).settlePins

/-- An event of the part: it happens only while the part runs (R162). -/
def State.event (s : State) (f : Plant → Plant) : State :=
  match s.mode with
  | .running => { s with plant := settle s.plant (f s.plant) }
  | _ => s

end Sys2Proof.Machine
end

