-- ==== Sys2Proof/Machine/Climate.lean ====
section
/-! DEFINITION. Chapter 7, the Climate Unit: sensor records, setpoints, targets and ramps (R114 to R121). -/

namespace Sys2Proof.Machine

/-! ### Sensors -/

/-- A sensor record after a sample (R115). -/
def SensorRecord.sample (r : SensorRecord) (x : Int) : SensorRecord :=
  if -200 ≤ x ∧ x ≤ 1300 then
    match r.status with
    | .faulty =>
      if r.goodStreak + 1 = 3 then { status := .good, value := some x, goodStreak := 0 }
      else { r with value := some x, goodStreak := r.goodStreak + 1 }
    | _ => { r with status := .good, value := some x }
  else { r with status := .faulty, goodStreak := 0 }

/-! ### Setpoints (R116) -/

/-- The DB setpoint of a step under a kiln maximum. -/
def dbSetpointOf (r : StepRecord) (maximum : Int) : Int := min r.db maximum

/-- The setpoints of a zone formed from a step (R116). -/
def ClimateState.form (c : ClimateState) (r : StepRecord) (maximum : Int) : ClimateState :=
  { c with
    dbSetpoint := some (dbSetpointOf r maximum)
    wbSetpoint := some (dbSetpointOf r maximum - r.depression)
    rampRate := r.rampRate }

/-- The zone's climate state changed. -/
def Plant.climate (p : Plant) (z : Zone) (f : ClimateState → ClimateState) : Plant :=
  p.zone z fun u => { u with climate := f u.climate }

/-- The setpoints of a zone formed from a step, with TARGET_CLAMPED where the maximum cuts it (R116). -/
def Plant.formSetpoints (p : Plant) (z : Zone) (r : StepRecord) : Plant :=
  let q := p.climate z fun c => c.form r p.kiln.maximumDb
  if p.kiln.maximumDb < r.db then q.raise (.zone z .targetClamped) else q

/-! ### Targets and ramps -/

/-- Either internal target differs from its internal setpoint (R120). -/
def ClimateState.offTarget (c : ClimateState) : Bool :=
  match c.dbSetpoint, c.wbSetpoint with
  | some d, some w => c.dbTarget != 60 * d || c.wbTarget != 60 * w
  | _, _ => false

/-- The ramp of a zone is in flight (R120). -/
def ZoneUnit.ramping (u : ZoneUnit) : Bool := u.ctx.state.inPhase && u.climate.offTarget

/-- A reported target (R118). -/
def reported (target : Int) : Int := (2 * target + 60) / 120

/-- The internal targets at their setpoints. -/
def ClimateState.arrive (c : ClimateState) : ClimateState :=
  match c.dbSetpoint, c.wbSetpoint with
  | some d, some w => { c with dbTarget := 60 * d, wbTarget := 60 * w, rampTimer := none }
  | _, _ => c

/-- A ramp start from the targets as they stand (R119). -/
def ClimateState.ramp (c : ClimateState) : ClimateState :=
  if c.rampRate = 0 then c.arrive
  else if c.offTarget then { c with rampTimer := some 60000 }
  else { c with rampTimer := none }

/-- The internal targets at the measured start values (R119). -/
def ClimateState.measure (c : ClimateState) (maximum : Int) : ClimateState :=
  let db := clampInt 0 (60 * maximum) ((c.db.usable.map (60 * ·)).getD c.dbTarget)
  let wb := max 0 (min db ((c.wb.usable.map (60 * ·)).getD c.wbTarget))
  { c with dbTarget := db, wbTarget := wb }

/-- One ramp minute of one target (R120). -/
def stepTarget (target setpoint : Int) (r : Nat) : Int :=
  if (setpoint - target).natAbs < r then setpoint
  else if target < setpoint then target + r
  else if setpoint < target then target - r
  else target

/-- A ramp minute expiry: both targets move, and the timer runs on while either is away from its setpoint (R120). -/
def ClimateState.rampMinute (c : ClimateState) : ClimateState :=
  match c.dbSetpoint, c.wbSetpoint with
  | some d, some w =>
    let m := { c with dbTarget := stepTarget c.dbTarget (60 * d) c.rampRate, wbTarget := stepTarget c.wbTarget (60 * w) c.rampRate }
    { m with rampTimer := if m.offTarget then some 60000 else none }
  | _, _ => { c with rampTimer := none }

/-- The ramp ends and the setpoints go, at the entry into IDLE or DONE (R116, R121). -/
def ClimateState.finish (c : ClimateState) : ClimateState :=
  { c with rampTimer := none, dbSetpoint := none, wbSetpoint := none, rampRate := 0 }

/-- Both targets clamped to a new kiln maximum (R117, step 2). -/
def ClimateState.clampTo (c : ClimateState) (maximum : Int) : ClimateState :=
  let db := min c.dbTarget (60 * maximum)
  { c with dbTarget := db, wbTarget := min c.wbTarget db }

/-- The ramp judged again after a change of the kiln maximum; `was` says that it was in flight before (R117, step 3). -/
def ClimateState.rejudge (c : ClimateState) (was : Bool) : ClimateState :=
  match was, c.offTarget with
  | true, true => c
  | false, true => c.ramp
  | true, false => { c with rampTimer := none }
  | false, false => c

end Sys2Proof.Machine
end

