-- ==== Sys2Proof/Machine/Outputs.lean ====
section
/-! DEFINITION. Chapter 7, the Output Unit: pulse periods and cuts (R122, R123), the fan machine (R124, R125), and the
override table (R127, R128). -/

namespace Sys2Proof.Machine

/-! ### Pulse periods -/

/-- The share of a period for an error against a proportional band, in seconds; less than 2 seconds is made 0 (R122). -/
def onTimeOf (period : Nat) (error band : Int) : Nat :=
  if error ≤ 0 then 0
  else
    let t := roundHalfUp (period * (min error band).toNat) band.toNat
    if t < 2 then 0 else t

/-- The on-times of HEAT, SPRAY and VENT at a period start (R122). -/
def ZoneUnit.onTimes (u : ZoneUnit) (items : ZoneConfig) (field : Bool) : Nat × Nat × Nat :=
  match u.climate.db.usable with
  | none => (0, 0, 0)
  | some db =>
    if !u.ctx.state.runs || u.output.fan.machine.dwells || !field then (0, 0, 0)
    else
      let heat := onTimeOf items.pulsePeriod (reported u.climate.dbTarget - db) items.pbHeat
      match u.climate.wb.usable with
      | none => (heat, 0, 0)
      | some wb =>
        let w := reported u.climate.wbTarget - min wb db
        (heat, onTimeOf items.pulsePeriod w items.pbHum, onTimeOf items.pulsePeriod (-w) items.pbHum)

/-- An output at a period start (R123). -/
def AutoOutput.begin (period onTime : Nat) : AutoOutput where
  level := onTime ≠ 0
  onTime := onTime
  timer := if onTime ≠ 0 ∧ onTime < period then Timer.seconds onTime else none

/-- A cut of the three outputs for the rest of the period (R123). -/
def OutputState.cut (o : OutputState) : OutputState := { o with heat := {}, spray := {}, vent := {} }

/-- The zone's output state changed. -/
def Plant.output (p : Plant) (z : Zone) (f : OutputState → OutputState) : Plant :=
  p.zone z fun u => { u with output := f u.output }

/-! ### Fans -/

/-- The fan starts running in its direction (R124). -/
def FanState.start (f : FanState) : FanState :=
  { f with
    machine := match f.direction with | .forward => .runFwd | .reverse => .runRev
    reversalCount := 0
    dwellTimer := none }

/-- The fan enters STOPPED; a dwell is abandoned (R124). -/
def FanState.stop (f : FanState) : FanState := { f with machine := .stopped, dwellTimer := none }

/-- The fan at the entry into IDLE, DONE or RESUME_PENDING (R124, R125). -/
def FanState.rest (f : FanState) : FanState := { f.stop with interval := 0 }

/-- The fan at SAFE entry (R124). -/
def FanState.enterSafe (f : FanState) (setting : SafeFan) : FanState :=
  match setting with
  | .stop => f.stop
  | .run => if f.machine.runs then f else f.start

/-- The fan at SAFE exit into HELD (R124). -/
def FanState.leaveSafe (f : FanState) : FanState := if f.machine = .stopped then f.start else f

/-- The fan of a zone in SAFE when the safe fan setting changes (R124). -/
def FanState.resetSafe (f : FanState) (setting : SafeFan) : FanState :=
  match setting with
  | .stop => f.stop
  | .run => if f.machine = .stopped then f.start else f

/-- The zone's fan state changed. -/
def Plant.fan (p : Plant) (z : Zone) (f : FanState → FanState) : Plant :=
  p.output z fun o => { o with fan := f o.fan }

/-- A dwell begins: the machine enters its dwell state, the dwell timer starts and the period is cut (R125). -/
def Plant.beginDwell (p : Plant) (z : Zone) : Plant :=
  p.output z fun o =>
    { o.cut with
      fan :=
        { o.fan with
          machine := match o.fan.machine with | .runFwd => .dwellToRev | .runRev => .dwellToFwd | m => m
          dwellTimer := Timer.seconds (p.items z).dwell } }

/-- The reversal count has reached a nonzero interval, in a RUN state of a zone in a phase state or HELD (R125). -/
def ZoneUnit.reversalDue (u : ZoneUnit) : Bool :=
  u.ctx.state.runs && u.output.fan.machine.runs && u.output.fan.interval != 0 &&
    decide (u.output.fan.interval ≤ u.output.fan.reversalCount)

/-- A dwell begins where a reversal is due. -/
def Plant.reverseIfDue (p : Plant) (z : Zone) : Plant := if (p.unit z).reversalDue then p.beginDwell z else p

/-- The active reversal interval set from a step, with the dwell it may begin at once (R125). -/
def Plant.setInterval (p : Plant) (z : Zone) (minutes : Nat) : Plant :=
  (p.fan z fun f => { f with interval := minutes }).reverseIfDue z

/-- The Output Unit's part of a minute expiry, after the sequencer's (R125). -/
def Plant.fanMinute (p : Plant) (z : Zone) : Plant :=
  if (p.unit z).ctx.state.runs && (p.unit z).output.fan.machine.runs then
    (p.fan z fun f => { f with reversalCount := bump 720 f.reversalCount }).reverseIfDue z
  else p

/-- The other direction. -/
def Direction.toggle : Direction → Direction
  | .forward => .reverse
  | .reverse => .forward

/-- The machine at the end of a dwell: the direction has toggled, the fan runs and the count is 0 (R125). -/
def FanState.endDwell (f : FanState) : FanState :=
  match f.machine with
  | .dwellToRev =>
    { f with machine := .runRev, direction := f.direction.toggle, reversalCount := 0, dwellTimer := none }
  | .dwellToFwd =>
    { f with machine := .runFwd, direction := f.direction.toggle, reversalCount := 0, dwellTimer := none }
  | _ => f

/-! ### Overrides -/

/-- Some override of the table stands (R127). -/
def OverrideTable.stands (t : OverrideTable) : Bool :=
  t.heat != .auto || t.spray != .auto || t.vent != .auto || t.fanRun != .auto || t.fanDir != .auto

/-- Some override stands in some zone. -/
def Plant.overrideStands (p : Plant) : Bool := Zone.order.any fun z => (p.unit z).output.overrides.stands

/-- The override lapse timer started with the KILN override timeout (R128). -/
def Plant.startLapse (p : Plant) : Plant := { p with lapse := Timer.minutes p.kiln.overrideTimeout }

/-- The override table of a zone changed. -/
def Plant.overrides (p : Plant) (z : Zone) (f : OverrideTable → OverrideTable) : Plant :=
  p.output z fun o => { o with overrides := f o.overrides }

end Sys2Proof.Machine
end

