-- ==== Sys2Proof/Machine/Schedule.lean ====
section
/-! DEFINITION. Chapter 4: the walk of a phase, validation, the following record, and the guard. -/

namespace Sys2Proof.Machine

/-- How a walk ends (R59). -/
inductive WalkEnd where
  | marker
  | blank (i : Fin 128)
  | noMarker (i : Fin 128)
  deriving DecidableEq, Repr

/-- The record after `i`, absent after S127. -/
def nextRecord (i : Fin 128) : Option (Fin 128) := if h : i.val + 1 < 128 then some ⟨i.val + 1, h⟩ else none

/-- The walk from record `i` with `fuel` more records allowed after it: its non-blank records and how it ends (R59). -/
def walkFrom (t : Table 128 (Option StepRecord)) : Nat → Fin 128 → List (Fin 128) × WalkEnd
  | fuel, i =>
    match t.get i with
    | none => ([], .blank i)
    | some r =>
      if r.last then ([i], .marker)
      else
        match fuel, nextRecord i with
        | fuel + 1, some j =>
          let rest := walkFrom t fuel j
          (i :: rest.1, rest.2)
        | _, _ => ([i], .noMarker i)

/-- The walk of a phase from its entry record: at most 32 records (R59). -/
def walk (t : Table 128 (Option StepRecord)) (e : Fin 128) : List (Fin 128) × WalkEnd := walkFrom t 31 e

/-- The finding in one phase, if any (R66). -/
def phaseFinding (t : Table 128 (Option StepRecord)) (entries : PhaseEntries) (p : Phase) : Option Finding :=
  match entries.get p with
  | none => if p = .drying ∨ p = .cooldown then some ⟨p, .noEntry, none⟩ else none
  | some e =>
    match (walk t e).2 with
    | .marker => none
    | .blank i => some ⟨p, .blankRecord, some i⟩
    | .noMarker i => some ⟨p, .noMarker, some i⟩

/-- Validation of a zone's schedule: the first finding in phase order (R66). -/
def Plant.validate (p : Plant) (z : Zone) : Option Finding :=
  Phase.order.findSome? (phaseFinding p.work.records (p.work.entries.get z))

/-- The records in the walk of a phase of a zone. -/
def Plant.extent (p : Plant) (z : Zone) (ph : Phase) : List (Fin 128) :=
  match (p.work.entries.get z).get ph with
  | none => []
  | some e => (walk p.work.records e).1

/-- Validation at a resumption (R67). A checkpoint with no phase or no step names no run; it gives the blank finding of DRYING
(log entry 13). The findings of checks 1 and 3 carry the recorded phase, the model's choice (log entry 36). -/
def Plant.validateResume (p : Plant) (z : Zone) (c : Checkpoint) : Option Finding :=
  match c.recorded, c.step with
  | .phase ph, some i => check ph i
  | .held ph, some i => check ph i
  | _, i => some ⟨.drying, .blankRecord, i⟩
where
  check (ph : Phase) (i : Fin 128) : Option Finding :=
    match p.work.records.get i with
    | none => some ⟨ph, .blankRecord, some i⟩
    | some _ =>
      match p.validate z with
      | some f => some f
      | none => if i ∈ p.extent z ph then none else some ⟨ph, .stepOutside, some i⟩

/-- The first phase of a run, with its entry record (R59). -/
def PhaseEntries.first (e : PhaseEntries) : Option (Phase × Fin 128) :=
  Phase.order.findSome? fun p => (e.get p).map fun i => (p, i)

/-- The record that follows record `i` of phase `ph`, with its phase; `last` is the last-in-phase of the active copy
(R59). -/
def PhaseEntries.following (e : PhaseEntries) (ph : Phase) (i : Fin 128) (last : Bool) : Option (Phase × Fin 128) :=
  if last then ph.later.findSome? fun q => (e.get q).map fun j => (q, j)
  else (nextRecord i).map fun j => (ph, j)

/-- Record `i` lies in the walk of a phase of some zone that guards records (R65). -/
def Plant.guarded (p : Plant) (i : Fin 128) : Bool :=
  Zone.order.any fun z => (p.ctx z).state.guards && Phase.order.any fun ph => decide (i ∈ p.extent z ph)

end Sys2Proof.Machine
end

