-- ==== Sys2Proof/Machine/Sequencer.lean ====
section
/-! DEFINITION. Chapters 5, 6 and 8: step entry, advance and lockstep, holds, SAFE, the first phase entry, starts and group
starts, and the resumption of a checkpointed run. -/

namespace Sys2Proof.Machine

/-! ### Holding (R91) -/

/-- Entry into HELD from a phase state (R91, R121). -/
def Plant.enterHeld (p : Plant) (z : Zone) : Plant :=
  let q := p.zone z fun u =>
    { u with
      ctx :=
        { u.ctx with
          state := .held
          underlying := u.ctx.state.phase?
          holdPending := false
          eligible := none
          waiting := false
          waitCount := 0 }
      climate := { u.climate with rampTimer := none } }
  (q.record z .held).queueCheckpoint z

/-- The hold-cause set of a zone in a phase state has become non-empty: HELD at once, or hold-pending while a ramp is in
flight (R91). -/
def Plant.applyHold (p : Plant) (z : Zone) : Plant :=
  if (p.unit z).ramping then
    p.context z fun c => { c with holdPending := true, eligible := none, waiting := false, waitCount := 0 }
  else p.enterHeld z

/-- A cause joins the hold-cause set of a zone in a phase state or HELD; other zones are passed over (R90, R91). -/
def Plant.joinHold (p : Plant) (z : Zone) (f : HoldCauses → HoldCauses) : Plant :=
  let c := p.ctx z
  let q := p.context z fun c => { c with holds := f c.holds }
  match c.state with
  | .phase _ => if !c.holds.any && (f c.holds).any then q.applyHold z else q
  | .held => q
  | _ => p

/-- A ramp completion is reported to the sequencer: a hold-pending zone enters HELD (R91, R120). -/
def Plant.rampComplete (p : Plant) (z : Zone) : Plant :=
  if (p.ctx z).state.inPhase && (p.ctx z).holdPending then p.enterHeld z else p

/-- What follows a change of a zone's climate that may complete its ramp (R120). -/
def Plant.reportRamp (before after : Plant) (z : Zone) : Plant :=
  if (before.unit z).ramping && !(after.unit z).ramping then after.rampComplete z else after

/-! ### Entries (R75, R83, R89) -/

/-- Entry into IDLE (R75), with the climate, the outputs, the fan and the safe-cause set as R121, R123, R124 and R143 say. -/
def Plant.enterIdle (p : Plant) (z : Zone) : Plant :=
  let q := p.zone z fun u =>
    { u with
      ctx :=
        { u.ctx with
          state := .idle
          underlying := none
          holds := {}
          holdPending := false
          stepIndex := none
          activeCopy := none
          eligible := none
          waiting := false
          waitCount := 0
          startTimeout := none
          ready := false
          resumeFrom := none }
      climate := u.climate.finish
      output := { u.output.cut with fan := u.output.fan.rest }
      causes := {} }
  q.queueCheckpoint z

/-- Entry into DONE (R89). -/
def Plant.enterDone (p : Plant) (z : Zone) : Plant :=
  let q := p.zone z fun u =>
    { u with
      ctx :=
        { u.ctx with
          state := .done
          underlying := none
          activeCopy := none
          eligible := none
          waiting := false
          waitCount := 0 }
      climate := u.climate.finish
      output := { u.output.cut with fan := u.output.fan.rest }
      causes := {} }
  ((q.record z .done).raise (.zone z .runDone)).queueCheckpoint z

/-- Where a ramp starts (R119). -/
inductive RampFrom where
  | current
  | measured
  deriving DecidableEq, Repr

/-- The setpoints of a step are formed and its ramp starts (R83 stage 2, R119). -/
def Plant.startRamp (p : Plant) (z : Zone) (r : StepRecord) (start : RampFrom) : Plant :=
  (p.formSetpoints z r).climate z fun c =>
    match start with
    | .current => c.ramp
    | .measured => (c.measure p.kiln.maximumDb).ramp

/-- Step entry at record `i` of phase `ph` (R83). The climate and fan stages act on the copy taken. -/
def Plant.enterStep (p : Plant) (z : Zone) (ph : Phase) (i : Fin 128) (start : RampFrom) : Plant :=
  let copy := p.work.records.get i
  let old := (p.ctx z).state
  let q := p.context z fun c =>
    { c with
      state := .phase ph
      underlying := none
      stepIndex := some i
      activeCopy := copy
      stepClock := 0
      eligible := none
      waiting := false
      waitCount := 0 }
  let r :=
    match copy with
    | some s => (q.startRamp z s start).setInterval z s.fanInterval
    | none => q
  (r.raise (.zone z (if old = .phase ph then .stepAdvanced else .phaseChanged))).queueCheckpoint z

/-! ### Eligibility and advance (R86 to R88) -/

/-- The measured dry bulb, when it is usable, satisfies `f`. -/
def ZoneUnit.dbSatisfies (u : ZoneUnit) (f : Int → Bool) : Bool :=
  match u.climate.db.usable with
  | some x => f x
  | none => false

/-- The condition of the step, as its phase reads it (R86). -/
def ZoneUnit.conditionMet (u : ZoneUnit) (items : ZoneConfig) (ph : Phase) (r : StepRecord) : Bool :=
  let cmcMet : Bool :=
    match u.aggregate.cmc with
    | some c => !c.aboveRange && decide (c.value ≤ r.mcThreshold)
    | none => false
  match ph with
  | .warmup =>
    match u.climate.dbSetpoint with
    | some set =>
      u.dbSatisfies (fun x => decide (set - items.warmupTolerance ≤ x)) &&
        (match u.aggregate.zwt with
         | some t => decide (set - items.warmupTolerance ≤ t)
         | none => true)
    | none => false
  | .drying => cmcMet
  | .equalize =>
    cmcMet &&
      (match u.aggregate.cmc, u.aggregate.dmc with
       | some c, some d => decide (c.value - d ≤ items.equalizeSpread)
       | _, _ => false)
  | .condition => false
  | .cooldown =>
    match u.climate.dbSetpoint with
    | some set => u.dbSatisfies fun x => decide (x ≤ set)
    | none => false

/-- The exit reason with which a zone in phase `ph` on step `r` is found eligible, if it is (R86, R87). -/
def ZoneUnit.judgeStep (u : ZoneUnit) (items : ZoneConfig) (ph : Phase) (r : StepRecord) : Option ExitReason :=
  let past : Bool := decide (r.minTime ≤ u.ctx.stepClock)
  if past && (r.sensor == .notUsed || ph == .condition) then some .timeOnly
  else if past && r.sensor == .used && u.conditionMet items ph r then some .sensorMet
  else if ph != .condition && decide (r.maxTime ≤ u.ctx.stepClock) then some .maxTime
  else none

/-- An advance: STEP_LEFT, FORCED_ADVANCE, and the following record or DONE (R88). -/
def Plant.advance (p : Plant) (z : Zone) : Plant :=
  let c := p.ctx z
  match c.state, c.stepIndex with
  | .phase ph, some i =>
    let q := p.record z .stepLeft c.eligible
    let r := if c.eligible = some .maxTime then q.raise (.zone z .forcedAdvance) else q
    match (p.work.entries.get z).following ph i ((c.activeCopy.map StepRecord.last).getD false) with
    | some (ph', j) => r.enterStep z ph' j .current
    | none => r.enterDone z
  | _, _ => p

/-- A member of the group (R103). -/
def Plant.grouped (p : Plant) (z : Zone) : Bool := (p.items z).grouped

/-- The zone is in the lockstep set (R110). -/
def Plant.inLockstep (p : Plant) (z : Zone) : Bool :=
  p.grouped z && !(p.ctx z).detached && (p.ctx z).currentPhase == some .drying

/-- The lockstep set in zone order (R110). -/
def Plant.lockstep (p : Plant) : List Zone := Zone.order.filter p.inLockstep

/-- The release judged: when every member of a lockstep set that is not empty waits, all advance (R111), in the order A to D,
the model's choice (log entry 32). -/
def Plant.judgeRelease (p : Plant) : Plant :=
  let set := p.lockstep
  if !set.isEmpty && set.all fun z => (p.ctx z).waiting then set.foldl Plant.advance p else p

/-- A zone becomes eligible with a reason (R87): it advances at once, or waits for its group (R110). A member that waits
already takes the new reason and waits on. -/
def Plant.becomeEligible (p : Plant) (z : Zone) (reason : ExitReason) : Plant :=
  let c := p.ctx z
  let q := p.context z fun c => { c with eligible := some reason }
  if p.grouped z && !c.detached && c.state == .phase .drying then
    if c.waiting then q else q.context z fun c => { c with waiting := true, waitCount := 0 }
  else q.advance z

/-- The eligibility of a zone evaluated (R86); the release is not judged here. -/
def Plant.evaluateAlone (p : Plant) (z : Zone) : Plant :=
  let c := p.ctx z
  match c.state, c.activeCopy with
  | .phase ph, some r =>
    if c.holdPending || c.eligible.isSome then p
    else
      match (p.unit z).judgeStep (p.items z) ph r with
      | some reason => p.becomeEligible z reason
      | none => p
  | _, _ => p

/-- The eligibility of a zone evaluated, and the release judged (R86, R111). -/
def Plant.evaluate (p : Plant) (z : Zone) : Plant := (p.evaluateAlone z).judgeRelease

/-! ### Leaving a hold (R92) -/

/-- The return of a HELD zone to its phase, up to the judgement of the release (R92, R121). -/
def Plant.returnToPhase (p : Plant) (z : Zone) : Plant :=
  match (p.ctx z).underlying with
  | none => p
  | some ph =>
    let q := p.zone z fun u =>
      { u with ctx := { u.ctx with state := .phase ph, underlying := none }, climate := u.climate.ramp }
    ((q.record z .resumed).queueCheckpoint z).evaluateAlone z

/-- A cause leaves the hold-cause set of a zone in a phase state or HELD, with what follows when the set empties (R90, R92);
the release is not judged here. -/
def Plant.leaveHold (p : Plant) (z : Zone) (f : HoldCauses → HoldCauses) : Plant :=
  let c := p.ctx z
  let q := p.context z fun c => { c with holds := f c.holds }
  match c.state with
  | .held => if (f c.holds).any then q else q.returnToPhase z
  | .phase _ =>
    if c.holdPending && !(f c.holds).any then
      (q.context z fun c => { c with holdPending := false }).evaluateAlone z
    else q
  | _ => p

/-! ### SAFE (R95, R96, R139, R140) -/

/-- The latch of every ALARM_OUT line is set ACTIVE (R153). -/
def Plant.soundAlarm (p : Plant) : Plant :=
  { p with
    lines := Table.tabulate 16 fun i =>
      if (p.lineItems i).role = .alarmOut then { p.lines.get i with latch := true } else p.lines.get i }

/-- SAFE entry (R95, R139). -/
def Plant.enterSafe (p : Plant) (z : Zone) : Plant :=
  let q := p.zone z fun u =>
    { u with
      ctx :=
        { u.ctx with
          state := .safe
          underlying := u.ctx.currentPhase
          holdPending := false
          eligible := none
          waiting := false
          waitCount := 0 }
      climate := { u.climate with rampTimer := none }
      output := { u.output.cut with fan := u.output.fan.enterSafe p.kiln.safeFan } }
  (((q.record z .safeEntered).queueCheckpoint z).raise (.zone z .safeEntered)).soundAlarm

/-- SAFE exit into HELD (R96, R140). -/
def Plant.exitSafe (p : Plant) (z : Zone) : Plant :=
  let q := p.zone z fun u =>
    { u with
      ctx := { u.ctx with state := .held, holds := { host := true, line := p.holdIn } }
      climate := u.climate.measure p.kiln.maximumDb
      output := { u.output with fan := u.output.fan.leaveSafe } }
  (q.record z .safeLeft).queueCheckpoint z

/-- Some cause of the first set is not in the second. -/
def SafeCauses.loses (c d : SafeCauses) : Bool :=
  (c.door && !d.door) || (c.sensor && !d.sensor) || (c.fan && !d.fan) || (c.overtemp && !d.overtemp)

/-- HOST joins the hold-cause set of a zone in SAFE that a cause has left while others stay, so that the set holds HOST in both
orders of two events (R142). That this is at the event that takes the cause away is read from R142 (log entry 31). -/
def ZoneContext.hostInSafe (c : ZoneContext) (lost : Bool) : ZoneContext :=
  { c with holds := { c.holds with host := c.holds.host || lost } }

/-- The safe-cause set of a watched zone changed in one event, with the SAFE entry or exit it decides (R133, R139, R140). A zone
in SAFE that a cause has left while others stay remains there (R142). -/
def Plant.changeCauses (p : Plant) (z : Zone) (f : SafeCauses → SafeCauses) : Plant :=
  let old := (p.unit z).causes
  let q := p.zone z fun u => { u with causes := f u.causes }
  match (p.ctx z).state with
  | .phase _ => if (q.unit z).causes.any then q.enterSafe z else q
  | .held => if (q.unit z).causes.any then q.enterSafe z else q
  | .safe =>
    if (q.unit z).causes.any then q.context z fun c => c.hostInSafe (old.loses (q.unit z).causes) else q.exitSafe z
  | _ => p

/-- The sensor condition of a zone (R135). -/
def ZoneUnit.sensorFault (u : ZoneUnit) : Bool := u.climate.db.status == .faulty || u.climate.wb.status == .faulty

/-- The over-temperature condition of a zone (R136). -/
def ZoneUnit.overtemp (u : ZoneUnit) (kiln : KilnConfig) : Bool :=
  u.dbSatisfies fun x => decide (kiln.maximumDb + kiln.overtempMargin < x)

/-- The proof overdue mark of a zone as it stands within an event (R137). It is no from the moment the proof timer should not
run, as at the event that brings proof, though the item itself is brought up to date by `settle` at the end of the event. -/
def Plant.overdue (p : Plant) (z : Zone) : Bool := (p.unit z).proofOverdue && p.shouldRun z

/-- A zone that becomes watched is judged at once, on the conditions as they stand (R138). -/
def Plant.judgeWatched (p : Plant) (z : Zone) : Plant :=
  let u := p.unit z
  p.changeCauses z fun c =>
    { door := c.door || p.doorOpen
      sensor := c.sensor || u.sensorFault
      fan := c.fan || p.overdue z
      overtemp := c.overtemp || u.overtemp p.kiln }

/-! ### Starting (R79 to R84, R105 to R108) -/

/-- The conditions of R81 that are not satisfied, masked as the precondition mask says. -/
def Plant.unmet (p : Plant) (z : Zone) : Unmet :=
  let u := p.unit z
  let mask := (p.items z).preconditions
  { door := mask.door && p.doorOpen
    fan := mask.fan && !p.proof z
    probes := mask.probes && decide (u.aggregate.count < (p.items z).nmin)
    climate :=
      !(u.climate.db.status == .good && u.climate.wb.status == .good &&
        u.dbSatisfies fun x => decide (x ≤ p.kiln.maximumDb + p.kiln.overtempMargin)) }

/-- Some condition is unmet. -/
def Unmet.any (x : Unmet) : Bool := x.door || x.fan || x.probes || x.climate || x.group

/-- Entry into the first phase (R82, R83), the LINE cause that may come with it (R90, R91), and the judgement of R138. -/
def Plant.enterFirstPhase (p : Plant) (z : Zone) : Plant :=
  match (p.work.entries.get z).first with
  | none => p
  | some (ph, i) =>
    let q := p.context z fun c => { c with startTimeout := none, ready := false, minuteTimer := some 60000 }
    let r := (q.enterStep z ph i .measured).record z .started
    let t := if p.holdIn then r.joinHold z fun h => { h with line := true } else r
    t.judgeWatched z

/-- The starting set in zone order: the members in STARTING (R104). -/
def Plant.startingSet (p : Plant) : List Zone :=
  Zone.order.filter fun z => p.grouped z && (p.ctx z).state == .starting

/-- The group judged: when every member of a starting set that is not empty is ready, all enter their first phase, in the order
A to D, the model's choice (log entry 32); an empty set stops the group start timeout (R107). -/
def Plant.judgeGroup (p : Plant) : Plant :=
  let set := p.startingSet
  if set.isEmpty then { p with groupTimeout := none }
  else if set.all fun z => (p.ctx z).ready then
    set.foldl Plant.enterFirstPhase { p with groupTimeout := none }
  else p

/-- The conditions of a zone in STARTING evaluated into its ready mark (R81, R107). -/
def Plant.markReady (p : Plant) (z : Zone) : Plant := p.context z fun c => { c with ready := !(p.unmet z).any }

/-- A zone in STARTING evaluated (R81, R82, R107); other zones are passed over. -/
def Plant.evaluateStart (p : Plant) (z : Zone) : Plant :=
  if (p.ctx z).state = .starting then
    let q := p.markReady z
    if p.grouped z then q.judgeGroup else if (q.ctx z).ready then q.enterFirstPhase z else q
  else p

/-- A start puts the zone into STARTING, before its conditions are evaluated (R79 steps 1 to 5, R124). -/
def Plant.putStarting (p : Plant) (z : Zone) (source : StartSource) : Plant :=
  p.zone z fun u =>
    { u with
      ctx :=
        { u.ctx with
          state := .starting
          underlying := none
          holds := {}
          holdPending := false
          stepIndex := none
          activeCopy := none
          stepClock := 0
          runClock := 0
          eligible := none
          waiting := false
          waitCount := 0
          detached := false
          startSource := source
          ready := false
          checkpointCount := 0
          lastFailure := none
          runRecord := []
          dropped := 0 }
      output := { u.output with fan := u.output.fan.start } }

/-- The start of a zone that is no member (R79). -/
def Plant.startAlone (p : Plant) (z : Zone) (source : StartSource) : Plant :=
  ((p.putStarting z source).context z fun c =>
    { c with startTimeout := Timer.minutes p.kiln.startTimeout }).evaluateStart z

/-- A start fails (R80). -/
def Plant.failStart (p : Plant) (z : Zone) (f : StartFailure) : Plant :=
  (p.context z fun c => { c with lastFailure := some f }).raise (.zone z .startFailed)

/-- Why a start from LINE, TIMER or GROUP cannot proceed, if it cannot (R78, R105). -/
def Plant.startObstacle (p : Plant) (z : Zone) (source : StartSource) : Option StartFailure :=
  if !p.fieldEnabled then some ⟨source, .fieldDisabled, none, none⟩
  else
    match p.validate z with
    | some f => some ⟨source, .badSchedule, some f, none⟩
    | none => none

/-- One member taken by a group start: it enters STARTING or fails (R105). -/
def Plant.takeMember (p : Plant) (z : Zone) (source : StartSource) : Plant :=
  match p.startObstacle z source with
  | some f => p.failStart z f
  | none => p.putStarting z source

/-- A group start from a source with its initiating members (R105, R106). -/
def Plant.groupStart (p : Plant) (source : StartSource) (initiating : Zone → Bool) : Plant :=
  let taken := Zone.order.filter fun z => p.grouped z && (p.ctx z).state == .idle
  let q := taken.foldl (fun q z => q.takeMember z (if initiating z then source else .group)) p
  let started := taken.filter fun z => (q.ctx z).state == .starting
  if started.isEmpty then q
  else
    let r := if p.startingSet.isEmpty then { q with groupTimeout := Timer.minutes p.kiln.startTimeout } else q
    (started.foldl Plant.markReady r).judgeGroup

/-- A start event from a line or from the delayed start timer: each IDLE zone whose start mask holds the source, and the
group where a member is among them (R78, R85, R105). The zones that are no members come first, the model's choice (log entry
32). -/
def Plant.startEvent (p : Plant) (source : StartSource) (inMask : StartMask → Bool) : Plant :=
  let hit (z : Zone) : Bool := (p.ctx z).state == .idle && inMask (p.items z).startMask
  let q := (Zone.order.filter fun z => hit z && !p.grouped z).foldl
    (fun q z =>
      match p.startObstacle z source with
      | some f => q.failStart z f
      | none => q.startAlone z source) p
  if Zone.order.any fun z => hit z && p.grouped z then q.groupStart source hit else q

/-- A start timeout ends the STARTING of one zone (R80, R84, R108). -/
def Plant.timeoutStart (p : Plant) (z : Zone) : Plant :=
  let own := p.unmet z
  let unmet := if own.any then own else { own with group := true }
  (p.failStart z ⟨(p.ctx z).startSource, .timeout, none, some unmet⟩).enterIdle z

/-! ### Resumption (R166) -/

/-- The resumption of a zone whose validation found nothing, up to the judgement of the release (R166). The resumption itself
raises no STEP_ADVANCED and no PHASE_CHANGED. That an advance at its last stage raises one of them as any advance does, compared
with the phase that has been taken up, is the model's reading (log entry 44). -/
def Plant.resumeRun (p : Plant) (z : Zone) (k : Checkpoint) : Plant :=
  let copy := k.step.bind p.work.records.get
  let state : ZoneState × Option Phase × Bool :=
    match k.recorded with
    | .phase ph => (.phase ph, none, k.hostHold)
    | .held ph => (.held, some ph, true)
    | .done => (.done, none, false)
    | .idle => (.idle, none, false)
  let q := p.zone z fun u =>
    { u with
      ctx :=
        { u.ctx with
          state := state.1
          underlying := state.2.1
          holds := { host := state.2.2, line := p.holdIn }
          holdPending := false
          stepIndex := k.step
          activeCopy := copy
          stepClock := k.stepClock
          runClock := k.runClock
          eligible := none
          waiting := false
          waitCount := 0
          detached := k.detached
          checkpointCount := 0
          minuteTimer := some 60000
          resumeFrom := none }
      output :=
        { u.output with
          fan := ({ u.output.fan with direction := k.direction } : FanState).start } }
  let r :=
    match copy with
    | some s =>
      ((q.formSetpoints z s).climate z fun c =>
        let m := c.measure p.kiln.maximumDb
        if state.1.inPhase then m.ramp else m).setInterval z s.fanInterval
    | none => q
  let t := (r.record z .restarted).queueCheckpoint z
  let v := if state.1.inPhase && (t.ctx z).holds.any then t.applyHold z else t
  (v.judgeWatched z).evaluateAlone z

/-- The resumption of a zone in RESUME_PENDING: a finding, or the resumed part (R67, R166). The release of R111 is judged after
the resumption of each zone; at an FE that resumes several it is the model's choice (log entry 33). -/
def Plant.tryResume (p : Plant) (z : Zone) : Finding ⊕ Plant :=
  let k := (p.ctx z).resumeFrom.getD {}
  match p.validateResume z k with
  | some f => .inl f
  | none => .inr (p.resumeRun z k).judgeRelease

end Sys2Proof.Machine
end

