-- ==== Sys2Proof/Machine/Scanner.lean ====
section
/-! DEFINITION. Chapter 1: addresses, profiles, the Measurement Front End, the passes, the share arbiter and the spot slot
(R5 to R22). -/

namespace Sys2Proof.Machine

/-! ### Addresses (R5, R6) -/

/-- A, the number of address lines (R5). -/
def Straps.addressLines (s : Straps) : Nat :=
  if s.mxs = 0 then 6 else if s.mxs = 1 then 5 else 4

/-- The number of banks (R5). -/
def Straps.banks (s : Straps) : Nat :=
  if s.mxs = 0 then 2 else if s.mxs = 1 then 3 else 4

/-- The address exists under the latched arrangement (R5). -/
def Straps.addressExists (s : Straps) (bank : Fin 4) (position : Fin 64) : Bool :=
  decide (bank.val < s.banks) && decide (position.val < 2 ^ s.addressLines)

/-- An entry's address exists (R1). -/
def Plant.exists (p : Plant) (c : ProbeConfig) : Bool := p.straps.addressExists c.bank c.position

/-- MX0..MX7 during a measurement: the position on the address lines and the bank's enable high (R6). -/
def Straps.muxOn (s : Straps) (bank : Fin 4) (position : Fin 64) : BitVec 8 :=
  BitVec.ofNat 8 (position.val % 2 ^ s.addressLines) ||| BitVec.ofNat 8 (2 ^ (s.addressLines + bank.val))

/-- MX0..MX7 after a measurement: every enable low, the address lines as they were (R6). -/
def Straps.muxOff (s : Straps) (mux : BitVec 8) : BitVec 8 := mux &&& BitVec.ofNat 8 (2 ^ s.addressLines - 1)

/-! ### Profiles and measurement (R9, R10) -/

/-- A window takes in an address (R9). -/
def WindowConfig.covers (w : WindowConfig) (bank : Fin 4) (position : Fin 64) : Bool :=
  w.count != 0 && w.bank == bank.val && decide (w.first ≤ position.val) && decide (position.val + 1 ≤ w.first + w.count)

/-- The lowest-numbered window that takes in an address (R9). -/
def Configuration.windowOf (c : Configuration) (bank : Fin 4) (position : Fin 64) : Option (Fin 4) :=
  (List.finRange 4).find? fun w => (c.windows.get w).covers bank position

/-- The duration in milliseconds (R10). -/
def duration (settle samples : Nat) (switch : Bool) : Nat := settle + samples * 20 + (if switch then 200 else 0)

/-- A measurement of an entry starts (R6, R9, R10). -/
def Plant.startMeasurement (p : Plant) (who : Requester) (i : Fin 64) : Plant :=
  let c := p.work.probes.get i
  let chosen : WindowId × Nat × Nat × Bool :=
    match p.work.config.windowOf c.bank c.position with
    | some w =>
      let x := p.work.config.windows.get w
      (.window w, x.settle, x.samples, x.switchSettle)
    | none => (.default, p.work.config.default.settle, p.work.config.default.samples, false)
  let switch := chosen.2.2.2 && p.frontEnd.previous != some chosen.1
  { p with
    mux := p.straps.muxOn c.bank c.position
    frontEnd :=
      { previous := some chosen.1
        inFlight :=
          some
            { requester := who
              entry := i
              kind := c.kind
              bank := c.bank
              position := c.position
              window := chosen.1
              samples := chosen.2.2.1
              duration := duration chosen.2.1 chosen.2.2.1 switch
              stale := false } } }

/-! ### Passes (R13 to R15) -/

/-- The states in which an entry is left out of a snapshot (R14). -/
def ProbeState.scanned : ProbeState → Bool
  | .excluded => false
  | .failed => false
  | .unreachable => false
  | _ => true

/-- The entry is measurable for the pass of zone `z` (R15). -/
def Plant.measurable (p : Plant) (z : Zone) (i : Fin 64) : Bool :=
  (p.work.probes.get i).zone == some z &&
    (match p.records.get i with
     | some r => r.state.scanned
     | none => false)

/-- The zone's pass state changed. -/
def Plant.pass (p : Plant) (z : Zone) (f : PassState → PassState) : Plant :=
  p.zone z fun u => { u with pass := f u.pass }

/-- A pass completes: its aggregate is formed and handed to the sequencer; the pass-due flag is not yet read (R15, R49). -/
def Plant.endPass (p : Plant) (z : Zone) : Plant :=
  let q := (p.pass z fun s => { s with progress := none }).replaceAggregate z
  if (q.ctx z).state = .starting then q.evaluateStart z else q.evaluate z

/-- A pass starts (R14): with an empty snapshot it completes at its start. -/
def Plant.startPass (p : Plant) (z : Zone) : Plant :=
  let snapshot := (List.finRange 64).filter (p.measurable z)
  if snapshot.isEmpty then p.endPass z
  else p.pass z fun s => { s with progress := some ⟨snapshot, snapshot⟩ }

/-- A pass completes, and a due pass starts at that completion (R13, R15). -/
def Plant.completePass (p : Plant) (z : Zone) : Plant :=
  let q := p.endPass z
  if (q.unit z).pass.due then (q.pass z fun s => { s with due := false }).startPass z else q

/-- The position of a pass moves past entries that are not measurable; at the end of the snapshot the pass completes
(R15). -/
def Plant.movePast (p : Plant) (z : Zone) : Plant :=
  match (p.unit z).pass.progress with
  | none => p
  | some g =>
    let rest := g.rest.dropWhile fun i => !p.measurable z i
    if rest.isEmpty then p.completePass z
    else p.pass z fun s => { s with progress := some { g with rest := rest } }

/-- The position moves to the next snapshot entry after a measurement of the pass (R15). -/
def Plant.advancePass (p : Plant) (z : Zone) : Plant :=
  (p.pass z fun s => { s with progress := s.progress.map fun g => { g with rest := g.rest.drop 1 } }).movePast z

/-! ### The arbiter (R16 to R18) -/

/-- The cyclic order of R17. -/
def Requester.order : List Requester := [.zone .a, .zone .b, .zone .c, .zone .d, .spot]

/-- The place of a requester in the cyclic order. -/
def Requester.place : Requester → Nat
  | .zone z => z.code
  | .spot => 4

/-- The requester is present (R16). -/
def Plant.requests (p : Plant) : Requester → Bool
  | .zone z => (p.unit z).pass.progress.isSome
  | .spot =>
    match p.spot with
    | .waiting _ => p.work.config.scan.spotEnabled
    | _ => false

/-- The cyclic order entered after a requester. -/
def Requester.after (r : Requester) : List Requester :=
  Requester.order.drop (r.place + 1) ++ Requester.order.take (r.place + 1)

/-- The requester a grant chooses, with the arbiter's state after the grant (R17, R18). -/
def Plant.choose (p : Plant) : Option (Requester × Arbiter) :=
  let rotation := p.arbiter.pointer.after.filter p.requests
  match p.work.config.scan.mode with
  | .equal => rotation.head?.map fun r => (r, { p.arbiter with pointer := r })
  | .favor =>
    let z : Requester := .zone p.work.config.scan.favoured
    let others := rotation.filter (· != z)
    let grantOther := others.head?.map fun r => (r, ({ pointer := r, turn := .favoured } : Arbiter))
    let grantZone := if p.requests z then some (z, { p.arbiter with turn := .others }) else none
    match p.arbiter.turn with
    | .favoured => if grantZone.isSome then grantZone else grantOther
    | .others => if grantOther.isSome then grantOther else grantZone

/-- The arbiter grants the free front end (R16): a zone whose pass finds no measurable entry left is passed over, its pass
completing, and the arbiter chooses again. That a zone passed over whose due pass starts in the event (R13) is among the
requesters it chooses from is the model's choice (log entry 37). A zone can be passed over at most twice in one event, once for
its pass and once for the due pass that follows it, so `fuel` 9 never runs out. -/
def Plant.grant : Nat → Plant → Plant
  | 0, p => p
  | fuel + 1, p =>
    if p.frontEnd.inFlight.isSome then p
    else
      match p.choose with
      | none => p
      | some (.spot, arbiter) =>
        match p.spot with
        | .waiting i => ({ p with arbiter := arbiter, spot := .measuring i } : Plant).startMeasurement .spot i
        | _ => p
      | some (.zone z, arbiter) =>
        match (p.unit z).pass.progress with
        | none => p
        | some g =>
          match g.rest.dropWhile fun i => !p.measurable z i with
          | [] => Plant.grant fuel (p.completePass z)
          | i :: rest =>
            (({ p with arbiter := arbiter } : Plant).pass z fun s =>
              { s with progress := some { g with rest := i :: rest } }).startMeasurement (.zone z) i

/-- The arbiter acts at the end of an event that may free the front end or add a requester (R16). -/
def Plant.arbitrate (p : Plant) : Plant := p.grant 9

/-! ### Measurement completion (R11, R12, R21) -/

/-- A spot measurement's result stored without being recorded (R21, R37). -/
def Plant.spotReading (p : Plant) (m : Measurement) (raw : Int) : SpotReading where
  entry := m.entry
  kind := m.kind
  raw := raw
  classification := classify m.kind raw
  value :=
    match classify m.kind raw with
    | .inRange =>
      let x := p.readingOf (p.work.probes.get m.entry) m.kind raw
      some (x.value, x.flags)
    | _ => none

/-- What the completed measurement does to its requester's path, before the next grant (R11, R12, R21). -/
def Plant.handOver (p : Plant) (m : Measurement) (raw : Int) : Plant :=
  match m.requester with
  | .zone z =>
    let q := if m.stale then p else p.judge z m.entry m.kind raw
    q.advancePass z
  | .spot =>
    if m.stale then
      { p with spot := if p.exists (p.work.probes.get m.entry) then .waiting m.entry else .empty }
    else { p with spot := .done (p.spotReading m raw) }

/-- The measurement in flight completes (R11). -/
def Plant.completeMeasurement (p : Plant) (samples : List Int) : Plant :=
  match p.frontEnd.inFlight with
  | none => p
  | some m =>
    let raw := average m.kind m.samples samples
    let q : Plant := { p with frontEnd := { p.frontEnd with inFlight := none }, mux := p.straps.muxOff p.mux }
    (q.handOver m raw).arbitrate

/-- A measurement in flight of an entry is marked stale where `f` holds of its requester (R12, R21). -/
def Plant.markStale (p : Plant) (i : Fin 64) (f : Requester → Bool) : Plant :=
  match p.frontEnd.inFlight with
  | some m =>
    if m.entry = i && f m.requester then
      { p with frontEnd := { p.frontEnd with inFlight := some { m with stale := true } } }
    else p
  | none => p

/-! ### The pass timer (R13) -/

/-- A pass timer expiry (R13). -/
def Plant.passExpiry (p : Plant) (z : Zone) : Plant :=
  let q := p.pass z fun s => { s with timer := Timer.minutes (p.items z).passInterval }
  if (q.unit z).pass.progress.isSome then q.pass z fun s => { s with due := true }
  else (q.startPass z).arbitrate

end Sys2Proof.Machine
end

