-- ==== Sys2Proof/Machine/Lines.lean ====
section
/-! DEFINITION. Chapter 9: debouncing, the delivery of debounced changes, and the reconfiguration of a line (R148 to
R151). -/

namespace Sys2Proof.Machine

/-- The debounce time in milliseconds (R146). -/
def debounceTime : Nat → Nat
  | 0 => 0
  | 1 => 10
  | 2 => 20
  | 3 => 50
  | 4 => 100
  | 5 => 200
  | 6 => 500
  | _ => 1000

/-- The volatile items of a line changed. -/
def Plant.line (p : Plant) (i : Fin 16) (f : LineState → LineState) : Plant := { p with lines := p.lines.modify i f }

/-- A change of the door condition acts on every watched zone and on every zone in STARTING (R134, R150); that the watched
zones come first is the model's choice (log entry 32). -/
def Plant.deliverDoor (p : Plant) : Plant :=
  let q := p.eachZone fun q z => q.changeCauses z fun c => { c with door := p.doorOpen }
  q.eachZone Plant.evaluateStart

/-- A HOLD_IN activation (R90). -/
def Plant.holdInActivation (p : Plant) : Plant :=
  p.eachZone fun q z => q.joinHold z fun h => { h with line := true }

/-- A HOLD_IN release (R90, R92): LINE leaves the set of every zone that holds it. That the release of R111 is judged once, after
every zone has been treated, is the model's choice (log entry 38). -/
def Plant.holdInRelease (p : Plant) : Plant :=
  (p.eachZone fun q z => if (q.ctx z).holds.line then q.leaveHold z fun h => { h with line := false } else q).judgeRelease

/-- A debounced change of a line of a role and zone, from `before` to `after`, is delivered to the users of the role (R150).
`pressed` says that it is an activation of a settled line. -/
def Plant.deliver (before after : Plant) (role : LineRole) (zone : Zone) (pressed : Bool) : Plant :=
  match role with
  | .door => if before.doorOpen != after.doorOpen then after.deliverDoor else after
  | .fanProof => after.evaluateStart zone
  | .startButton => if pressed then after.startEvent .line StartMask.line else after
  | .holdIn =>
    match before.holdIn, after.holdIn with
    | false, true => after.holdInActivation
    | true, false => after.holdInRelease
    | _, _ => after
  | _ => after

/-- The debounced level of an input line becomes `level` and is settled, and a change is delivered (R148). -/
def Plant.takeLevel (p : Plant) (i : Fin 16) (level : Bool) : Plant :=
  let l := p.lines.get i
  let c := p.lineItems i
  let q := p.line i fun l => { l with debounced := level, settled := true, timer := none }
  if level != l.debounced then p.deliver q c.role c.zone (l.settled && level) else q

/-- A line begins settling under its configuration; with debounce code 0 it takes its level in the same event (R148). -/
def Plant.beginSettling (p : Plant) (i : Fin 16) : Plant :=
  let c := p.lineItems i
  let q := p.line i fun l =>
    { l with debounced := false, settled := false, timer := some (debounceTime c.debounce) }
  if c.debounce = 0 then q.takeLevel i (c.polarity.convert (p.lines.get i).external) else q

/-- The level applied from outside to a line changes (R148). -/
def Plant.pinChange (p : Plant) (i : Fin 16) (high : Bool) : Plant :=
  let l := p.lines.get i
  let c := p.lineItems i
  let q := p.line i fun l => { l with external := high }
  if c.role.isOutput || high == l.external || !l.settled then q
  else if c.polarity.convert high = l.debounced then q.line i fun l => { l with timer := none }
  else if c.debounce = 0 then q.takeLevel i (c.polarity.convert high)
  else q.line i fun l => { l with timer := some (debounceTime c.debounce) }

/-- A debounce timer expires: the debounced level takes the level of the pin (R148). -/
def Plant.debounceExpiry (p : Plant) (i : Fin 16) : Plant :=
  let l := p.lines.get i
  let c := p.lineItems i
  if c.role.isOutput || l.timer.isNone then p else p.takeLevel i (c.polarity.convert l.external)

/-- The role, the zone, the polarity or the debounce code differs (R149). -/
def LineConfig.reconfigures (old new : LineConfig) : Bool :=
  old.role != new.role || old.zone != new.zone || old.polarity != new.polarity || old.debounce != new.debounce

/-- A line whose change R149 guards. -/
def LineRole.guarded : LineRole → Bool
  | .door => true
  | .fanProof => true
  | .holdIn => true
  | _ => false

/-- The working copy of a line's configuration replaced. -/
def Plant.putLineItems (p : Plant) (i : Fin 16) (c : LineConfig) : Plant :=
  { p with work := { p.work with config := { p.work.config with lines := p.work.config.lines.set i c } } }

/-- A performed CW LINE (R149). -/
def Plant.configureLine (p : Plant) (i : Fin 16) (new : LineConfig) : Plant :=
  let old := p.lineItems i
  if !old.reconfigures new then p.putLineItems i new
  else
    let q := p.line i fun l => { l with latch := false }
    let left :=
      if !old.role.isOutput && (p.lines.get i).debounced then
        q.deliver (q.line i fun l => { l with debounced := false }) old.role old.zone false
      else q
    let quiet := (left.putLineItems i new).line i fun l => { l with debounced := false, settled := false, timer := none }
    if new.role.isOutput then quiet else quiet.beginSettling i

end Sys2Proof.Machine
end

