-- ==== Sys2Proof/Machine/Resets.lean ====
section
/-! DEFINITION. Chapter 10: the three kinds of reset, the loss of the supply, and the restart (R157, R162 to R165), with the
reset values that each chapter gives. -/

namespace Sys2Proof.Machine

/-! ### What a reset leaves of the plant -/

/-- A line while the part is in reset or without supply: no latch, nothing driven (R151, R155). -/
def LineState.quiet (l : LineState) : LineState := { external := l.external, pin := l.external }

/-- The plant with every volatile item at its reset value and nothing running; the store, the straps and the levels applied
to the lines stay (R23, R55, R72, R102, R132, R145, R155). -/
def Plant.quiet (p : Plant) : Plant :=
  { p with
    alerts := []
    attn := false
    queue := {}
    cursor := 0
    zones := .all {}
    groupTimeout := none
    records := .fill 64 none
    frontEnd := {}
    arbiter := {}
    spot := .empty
    mux := 0
    lines := p.lines.map LineState.quiet
    delayedStart := none
    lapse := none
    fieldEnabled := false }

/-- The write in flight completes before a pin or commanded reset takes effect (R162). -/
def Plant.flush (p : Plant) : Plant :=
  match p.queue.inFlight with
  | some w => { p with store := p.store.write w }
  | none => p

/-- The write in flight is cut by the loss of the supply (R162). -/
def Plant.cutWrite (p : Plant) : Plant :=
  match p.queue.inFlight with
  | some w => { p with store := p.store.cut w }
  | none => p

/-- The cause record at a reset (R165). -/
def CauseRecord.take (c : CauseRecord) : ResetKind → CauseRecord
  | .powerOn => { powerOn := true, pin := false, commanded := false, lastKind := .powerOn }
  | .pin => { c with pin := true, lastKind := .pin }
  | .commanded => { c with commanded := true, lastKind := .commanded }

/-- The link when a reset is taken (R183). -/
def LinkState.reset (l : LinkState) (k : ResetKind) : LinkState :=
  match k with
  | .powerOn => { cause := l.cause.take .powerOn }
  | k => { gate := l.gate, checkErrors := l.checkErrors, overruns := l.overruns, cause := l.cause.take k }

/-- A reset is taken (R162): the part stands in reset until its restart. -/
def State.takeReset (s : State) (k : ResetKind) : State :=
  { s with
    mode := .inReset k
    resetDrive := k != .pin
    link := s.link.reset k
    plant := (match k with | .powerOn => s.plant.cutWrite | _ => s.plant.flush).quiet }

/-- The supply fails: the write in flight is cut and all activity stops (R162). -/
def State.loseSupply (s : State) : State :=
  match s.mode with
  | .off => s
  | _ =>
    { s with
      mode := .off
      resetDrive := false
      link :=
        { gate := s.link.gate
          checkErrors := s.link.checkErrors
          overruns := s.link.overruns
          cause := s.link.cause }
      plant := s.plant.cutWrite.quiet }

/-! ### The restart (R164) -/

/-- The working copies loaded from the store, each section that fails its check as delivered (R157). -/
def Nonvolatile.load (n : Nonvolatile) : Working where
  config := n.configuration.getD .delivered
  probes := n.probeTable.getD Working.delivered.probes
  species := n.species.getD Working.delivered.species
  records := n.schedule.getD Working.delivered.records
  entries := n.entryTables.getD Working.delivered.entries
  code := n.accessCode.getD Working.delivered.code

/-- Some section other than a checkpoint fails its check (R157). -/
def Nonvolatile.defaulted (n : Nonvolatile) : Bool :=
  n.configuration.isNone || n.probeTable.isNone || n.species.isNone || n.schedule.isNone || n.entryTables.isNone ||
    n.accessCode.isNone

/-- An alert raised where a condition holds. -/
def Plant.raiseIf (p : Plant) (b : Bool) (a : Alert) : Plant := if b then p.raise a else p

/-- The runtime record of an entry after a reset (R7, R55). -/
def Plant.freshRecord (p : Plant) (c : ProbeConfig) : Option ProbeRecord :=
  if c.zone.isNone then none
  else if p.exists c then some {}
  else some { state := .unreachable }

/-- The runtime records after the straps are latched, with UNREACHABLE_PROBES (R7, R55). -/
def Plant.markUnreachable (p : Plant) : Plant :=
  let records := Table.tabulate 64 fun i => p.freshRecord (p.work.probes.get i)
  ({ p with records := records } : Plant).raiseIf
    ((List.finRange 64).any fun i => records.get i == some { state := .unreachable })
    (.device .unreachableProbes)

/-- The zone's timers started at the end of a reset (R13, R76, R114, R122). -/
def Plant.startTimers (p : Plant) (z : Zone) : Plant :=
  p.zone z fun u =>
    { u with
      ctx := { u.ctx with minuteTimer := some 60000 }
      climate := { u.climate with sampleTimer := some 10000 }
      output := { u.output with pulseTimer := Timer.seconds (p.items z).pulsePeriod }
      pass := { u.pass with timer := Timer.minutes (p.items z).passInterval } }

/-- The zone's state from its checkpoint (R102, R164); lost checkpoints are queued in the order A to D, the model's choice (log
entry 32). -/
def Plant.restoreZone (p : Plant) (z : Zone) : Plant :=
  match p.store.checkpoints.get z with
  | none => ((p.queueCheckpoint z).soundAlarm).raise (.zone z .checkpointLost)
  | some k =>
    match k.recorded with
    | .idle => p
    | .done =>
      p.context z fun c =>
        { c with state := .done, stepIndex := k.step, stepClock := k.stepClock, runClock := k.runClock }
    | _ =>
      (p.context z fun c =>
        { c with
          state := .resumePending
          stepIndex := k.step
          stepClock := k.stepClock
          runClock := k.runClock
          detached := k.detached
          resumeFrom := some k }).raise (.zone z .resumeWaiting)

/-- Every input line begins settling (R148, R155). -/
def Plant.settleLines (p : Plant) : Plant :=
  (List.finRange 16).foldl (fun q i => if (q.lineItems i).role.isOutput then q else q.beginSettling i) p

/-- The restart of the plant at the end of a reset (R164): the passes start, and the arbiter makes its first grant (R13, R16).
That each zone's state is taken from its checkpoint before the first passes start, so that R53 judges an empty first pass on the
restored state, is the model's reading (log entry 42). -/
def Plant.restart (p : Plant) (straps : Straps) : Plant :=
  let base : Plant := { p.quiet with straps := straps, work := p.store.load }
  let alerted := (base.raiseIf p.store.defaulted (.device .storeDefaulted)).markUnreachable.raise (.device .resetSeen)
  let zoned := (alerted.eachZone Plant.startTimers).eachZone Plant.restoreZone
  ((zoned.settleLines.eachZone Plant.startPass).arbitrate).settlePins

/-- The end of a reset (R162 to R164). -/
def State.endReset (s : State) (straps : Straps) : State :=
  match s.mode with
  | .inReset _ => { s with mode := .running, resetDrive := false, plant := s.plant.restart straps }
  | _ => s

end Sys2Proof.Machine
end

