-- ==== Sys2Proof/Machine/Link.lean ====
section
/-! DEFINITION. Chapter 11, the frame of every request: the station, the CRC, the overrun check, the gate check, the
performance in the event of the taking, and the request left unanswered (R169 to R174, R177, R178). -/

namespace Sys2Proof.Machine

/-! ### Station and CRC -/

/-- The part's station, 1..31 (R169). -/
def Straps.station (s : Straps) : Nat := if s.sta = 0 then 1 else s.sta.toNat

/-- One bit of the CRC: the register moves one place, and the polynomial 0x1021 enters where a one leaves it (R170). -/
def crcShift (crc : BitVec 16) : BitVec 16 := if crc.msb then (crc <<< 1) ^^^ 0x1021#16 else crc <<< 1

/-- One byte enters the CRC, most significant bit first (R170). -/
def crcByte (crc : BitVec 16) (b : Byte) : BitVec 16 :=
  (List.range 8).foldl (fun c _ => crcShift c) (crc ^^^ (b.setWidth 16 <<< 8))

/-- The CRC of a byte sequence: initial value 0xFFFF, no final inversion (R170). -/
def crcOf (bytes : List Byte) : BitVec 16 := bytes.foldl crcByte 0xFFFF#16

/-- The two CRC bytes, high byte first (R170). -/
def crcBytes (crc : BitVec 16) : List Byte := [(crc >>> 8).setWidth 8, crc.setWidth 8]

/-! ### What a request does to the plant -/

/-- What the owner of a request does with it: answer and leave the plant as it is, or perform it. -/
inductive Performance where
  | answered (a : Answer)
  | performed (p : Plant) (a : Answer)

/-- A refusal with a status code and no content. -/
def Performance.refuse (status : Status) : Performance := .answered { status := status }

/-- An OK answer that carries content and changes nothing. -/
def Performance.read (content : Content) : Performance := .answered { status := .ok, content := content }

/-- A performed request that queues no host item. -/
def Performance.ok (p : Plant) (content : Content := .none) : Performance :=
  .performed p { status := .ok, content := content }

/-- A performed store-changing request: its host item is queued in the same event (R159). That it is queued after the checkpoint
items that the request's effects queue is the model's choice (log entry 39). -/
def Performance.stored (p : Plant) (item : SectionName) (status : Status := .ok) (content : Content := .none) :
    Performance :=
  .performed (p.enqueue (.host item)) { status := status, content := content, stores := true }

/-- A request carried out by a block below the link; the levels follow at the end of its event. -/
def State.ask (s : State) (f : Plant → Performance) : State × Answer :=
  match f s.plant with
  | .answered a => (s, a)
  | .performed p a => ({ s with plant := settle s.plant p }, a)

/-! ### Taking a request -/

/-- A link counter increased by one, stopping at 65535 (R171). -/
def countUp (n : Nat) : Nat := bump 65535 n

/-- The state with its link changed. -/
def State.withLink (s : State) (f : LinkState → LinkState) : State := { s with link := f s.link }

/-- A frame whose CRC and station are good completes (R171, checks 3 and 4). While TXEN is asserted the receiver takes no
byte, and in reset or without supply a frame is lost (R162, R168): then nothing happens. -/
def State.complete (s : State) (f : State → State) : State :=
  match s.mode with
  | .running =>
    if s.link.txen then s
    else if s.link.unanswered.isSome then
      s.withLink fun l => { l with receiver := .hunt, overruns := countUp l.overruns }
    else f (s.withLink fun l => { l with receiver := .hunt })
  | _ => s

/-- A taken request becomes the unanswered one with the answer it has been given (R172). -/
def State.note (r : State × Answer) (env : Envelope) (letters : Byte × Byte) : State :=
  r.1.withLink fun l =>
    { l with
      unanswered :=
        some
          { kind := letters
            tag := env.tag
            broadcast := env.broadcast
            answer := r.2
            awaitsStore := r.2.stores
            resets := letters == RequestKind.rs.letters && r.2.status == .ok } }

/-- A request of a kind performed or refused: check 3 of R174, and then the owner's checks and effects. -/
def State.perform (s : State) (kind : RequestKind) (f : State → State × Answer) : State × Answer :=
  if kind.gated && s.link.gate != .open then (s, { status := .denied }) else f s

/-- The frame of a request of a known kind, with its payload length right, completes: it is counted as an overrun, or taken
and performed in this event (R171, R174). -/
def State.take (s : State) (env : Envelope) (kind : RequestKind) (f : State → State × Answer) : State :=
  s.complete fun h => State.note (h.perform kind f) env kind.letters

end Sys2Proof.Machine
end

