-- ==== Sys2Proof/Machine/Configure.lean ====
section
/-! DEFINITION. CW in its seven items, and CR (R8, R19, R103, R117, R124, R146, R149, R176). -/

namespace Sys2Proof.Machine

/-- The status of a performed CW: CLAMPED when a field was moved to a bound (R176). -/
def writeStatus (clamped : Bool) : Status := if clamped then .clamped else .ok

/-- A performed CW: its host item is queued (R159, R176). -/
def Performance.configured (p : Plant) (clamped : Bool) : Performance := .stored p .configuration (writeStatus clamped)

/-- The plant with the working copy of its configuration changed. -/
def Plant.configure (p : Plant) (f : Configuration → Configuration) : Plant :=
  { p with work := { p.work with config := f p.work.config } }

/-! ### KILN -/

/-- The setpoints of a zone formed anew where they are present (R117, step 1). -/
def Plant.reform (p : Plant) (z : Zone) : Plant :=
  match (p.unit z).climate.dbSetpoint, (p.ctx z).activeCopy with
  | some _, some r => p.formSetpoints z r
  | _, _ => p

/-- A changed kiln maximum acts on one zone (R117). -/
def Plant.takeMaximum (p : Plant) (z : Zone) : Plant :=
  let q := (p.reform z).climate z fun c => c.clampTo p.kiln.maximumDb
  let r := if (p.ctx z).state.inPhase then q.climate z fun c => c.rejudge (p.unit z).ramping else q
  p.reportRamp r z

/-- A changed safe fan setting acts on a zone in SAFE (R124). -/
def Plant.takeSafeFan (p : Plant) (z : Zone) : Plant :=
  if (p.ctx z).state = .safe then p.fan z fun f => f.resetSafe p.kiln.safeFan else p

/-- A performed CW KILN (R81, R117, R124). That every zone takes the new maximum, with its checkpoint where that completes a ramp,
and then the safe fan setting, before any zone in STARTING is evaluated, is the model's choice (log entry 32). -/
def Plant.writeKiln (p : Plant) (k : KilnConfig) : Plant :=
  let old := p.kiln
  let q := p.configure fun c => { c with kiln := k }
  let r := if old.maximumDb ≠ k.maximumDb then q.eachZone Plant.takeMaximum else q
  let t := if old.safeFan ≠ k.safeFan then r.eachZone Plant.takeSafeFan else r
  t.eachZone Plant.evaluateStart

/-- CW KILN. -/
def performCwKiln (fields : RawKiln) (p : Plant) : Performance :=
  match kilnOf fields with
  | none => .refuse .badValue
  | some k => .configured (p.writeKiln k.1) k.2

/-! ### ZONE -/

/-- A performed CW ZONE (R13, R81). -/
def Plant.writeZone (p : Plant) (z : Zone) (c : ZoneConfig) : Plant :=
  let q := p.configure fun x => { x with zones := x.zones.set z c }
  let r :=
    if (p.items z).passInterval ≠ c.passInterval then q.pass z fun s => { s with timer := Timer.minutes c.passInterval }
    else q
  r.evaluateStart z

/-- The states in which the grouped item may change (R103). -/
def ZoneState.mayRegroup : ZoneState → Bool
  | .idle => true
  | .done => true
  | _ => false

/-- CW ZONE z (R103). -/
def performCwZone (zone : Nat) (fields : RawZone) (p : Plant) : Performance :=
  match zoneOf zone, zoneItemsOf fields with
  | some z, some c =>
    if c.1.grouped ≠ (p.items z).grouped ∧ (p.ctx z).state.mayRegroup = false then .refuse .wrongState
    else .configured (p.writeZone z c.1) c.2
  | _, _ => .refuse .badValue

/-! ### GROUP, SCAN, WINDOW and DEFAULT -/

/-- CW GROUP (R103). -/
def performCwGroup (together limit : Nat) (p : Plant) : Performance :=
  match yesNoOf together with
  | none => .refuse .badValue
  | some yes =>
    let wait := clampedNat 0 1440 limit
    .configured (p.configure fun c => { c with group := { holdTogether := yes, waitLimit := wait.1 } }) wait.2

/-- A performed CW SCAN (R19). -/
def Plant.writeScan (p : Plant) (c : ScanConfig) : Plant :=
  let q := p.configure fun x => { x with scan := c }
  match c.mode with
  | .favor => { q with arbiter := { q.arbiter with turn := .favoured } }
  | .equal => q

/-- CW SCAN: refused while the spot slot is occupied (R19). -/
def performCwScan (mode favoured spotEnabled : Nat) (p : Plant) : Performance :=
  match scanModeOf mode, zoneOf favoured, yesNoOf spotEnabled with
  | some m, some z, some e =>
    match p.spot with
    | .empty => .configured (p.writeScan { mode := m, favoured := z, spotEnabled := e }) false
    | _ => .refuse .wrongState
  | _, _, _ => .refuse .badValue

/-- CW WINDOW w (R8). -/
def performCwWindow (window : Nat) (fields : RawWindow) (p : Plant) : Performance :=
  match indexOf 4 window, windowOf fields with
  | some w, some c => .configured (p.configure fun x => { x with windows := x.windows.set w c.1 }) c.2
  | _, _ => .refuse .badValue

/-- CW DEFAULT (R8). -/
def performCwDefault (settle samples : Nat) (p : Plant) : Performance :=
  if sampleCountOk samples then
    let t := clampedNat 10 2000 settle
    .configured (p.configure fun x => { x with default := { settle := t.1, samples := samples } }) t.2
  else .refuse .badValue

/-! ### LINE -/

/-- A change of a line is refused while some zone runs (R149). -/
def Plant.lineBlocked (p : Plant) (i : Fin 16) (new : LineConfig) : Bool :=
  let old := p.lineItems i
  (old.role.guarded || new.role.guarded) && old.reconfigures new && Zone.order.any fun z => (p.ctx z).state.guards

/-- CW LINE n (R146, R149). -/
def performCwLine (line : Nat) (fields : RawLine) (p : Plant) : Performance :=
  match indexOf 16 line, lineOf fields with
  | some i, some c =>
    if p.lineBlocked i c.1 then .refuse .wrongState else .configured (p.configureLine i c.1) c.2
  | _, _ => .refuse .badValue

/-! ### CR -/

/-- CR with an item code, numbered in the order of R176, and the item's index (R176). -/
def performConfigurationRead (item index : Nat) (p : Plant) : Performance :=
  let c := p.work.config
  match item with
  | 0 => .read (.kiln c.kiln)
  | 1 =>
    match zoneOf index with
    | some z => .read (.zoneItem (c.zones.get z))
    | none => .refuse .badValue
  | 2 => .read (.group c.group)
  | 3 => .read (.scan c.scan)
  | 4 =>
    match indexOf 4 index with
    | some w => .read (.window (c.windows.get w))
    | none => .refuse .badValue
  | 5 => .read (.default c.default)
  | 6 =>
    match indexOf 16 index with
    | some i => .read (.line (c.lines.get i))
    | none => .refuse .badValue
  | _ => .refuse .badValue

/-! ### The commands -/

/-- CW KILN. -/
def execCwKiln (env : Envelope) (fields : RawKiln) (s : State) : Host.Outcome State Fault Refusal :=
  .next (s.take env .cw fun h => h.ask (performCwKiln fields))

/-- CW ZONE. -/
def execCwZone (env : Envelope) (zone : Nat) (fields : RawZone) (s : State) : Host.Outcome State Fault Refusal :=
  .next (s.take env .cw fun h => h.ask (performCwZone zone fields))

/-- CW GROUP. -/
def execCwGroup (env : Envelope) (together limit : Nat) (s : State) : Host.Outcome State Fault Refusal :=
  .next (s.take env .cw fun h => h.ask (performCwGroup together limit))

/-- CW SCAN. -/
def execCwScan (env : Envelope) (mode favoured spotEnabled : Nat) (s : State) : Host.Outcome State Fault Refusal :=
  .next (s.take env .cw fun h => h.ask (performCwScan mode favoured spotEnabled))

/-- CW WINDOW. -/
def execCwWindow (env : Envelope) (window : Nat) (fields : RawWindow) (s : State) : Host.Outcome State Fault Refusal :=
  .next (s.take env .cw fun h => h.ask (performCwWindow window fields))

/-- CW DEFAULT. -/
def execCwDefault (env : Envelope) (settle samples : Nat) (s : State) : Host.Outcome State Fault Refusal :=
  .next (s.take env .cw fun h => h.ask (performCwDefault settle samples))

/-- CW LINE. -/
def execCwLine (env : Envelope) (line : Nat) (fields : RawLine) (s : State) : Host.Outcome State Fault Refusal :=
  .next (s.take env .cw fun h => h.ask (performCwLine line fields))

/-- CR. -/
def execConfigurationRead (env : Envelope) (item index : Nat) (s : State) : Host.Outcome State Fault Refusal :=
  .next (s.take env .cr fun h => h.ask (performConfigurationRead item index))

end Sys2Proof.Machine
end

