-- ==== Sys2Proof/Machine/LineRequests.lean ====
section
/-! DEFINITION. The requests on the discrete lines: LW, LR (R152, R154). -/

namespace Sys2Proof.Machine

/-- Every masked line is an output (R152). -/
def Plant.maskOk (p : Plant) (mask : Table 16 Bool) : Bool :=
  (List.finRange 16).all fun i => !mask.get i || (p.lineItems i).role.isOutput

/-- The masked latches take their values (R152). -/
def Plant.writeLatches (p : Plant) (mask values : Table 16 Bool) : Plant :=
  { p with
    lines := Table.tabulate 16 fun i =>
      if mask.get i then { p.lines.get i with latch := values.get i } else p.lines.get i }

/-- The sixteen latches. -/
def Plant.latches (p : Plant) : Table 16 Bool := p.lines.map LineState.latch

/-- LW (R152). That the latches go with an OK alone, and a refusal carries its status only, is the model's reading (log entry
43). -/
def performLineModify (mask values : Nat) (p : Plant) : Performance :=
  if p.maskOk (lineBits mask) then
    let q := p.writeLatches (lineBits mask) (lineBits values)
    .ok q (.latches q.latches)
  else .refuse .badValue

/-- One line as LR shows it (R154). -/
def LineState.reading (l : LineState) : LineReading := ⟨l.latch, l.pin, l.debounced, l.settled, l.timer.isSome⟩

/-- LR (R154). -/
def performLineRead (p : Plant) : Performance := .read (.lines (p.lines.map LineState.reading))

/-- LW. -/
def execLineModify (env : Envelope) (mask values : Nat) (s : State) : Host.Outcome State Fault Refusal :=
  .next (s.take env .lw fun h => h.ask (performLineModify mask values))

/-- LR. -/
def execLineRead (env : Envelope) (s : State) : Host.Outcome State Fault Refusal :=
  .next (s.take env .lr fun h => h.ask performLineRead)

end Sys2Proof.Machine
end

