-- ==== Sys2Proof/Machine/LinkRequests.lean ====
section
/-! DEFINITION. The requests that the Link Controller owns, with RS and CC: ID, ST, AK, UN, CD, RS, CC (R162, R165, R177, R179
to R182). -/

namespace Sys2Proof.Machine

/-- ID (R182). -/
def performIdentify (p : Plant) : Performance := .read (.identity p.straps)

/-- What ST returns (R180). -/
def State.report (s : State) : StatusReport where
  gate := s.link.gate
  cause := s.link.cause
  checkErrors := s.link.checkErrors
  overruns := s.link.overruns
  fieldEnabled := s.plant.fieldEnabled
  zones := PerZone.tabulate fun z => ((s.plant.ctx z).state, (s.plant.ctx z).underlying)
  alerts := s.plant.alerts

/-- ST (R180). -/
def performStatus (s : State) : State × Answer := (s, { status := .ok, content := .status s.report })

/-- AK (R181). -/
def performAcknowledge (pairs : List (Nat × Nat)) (p : Plant) : Performance :=
  match alertsOf pairs with
  | none => .refuse .badValue
  | some listed =>
    let left := p.alerts.filter fun a => !listed.contains a
    .ok { p with alerts := left } (.alertsLeft left.length)

/-- UN (R177). -/
def performUnlock (code : List Byte) (s : State) : State × Answer :=
  match s.link.gate with
  | .open => (s, { status := .ok })
  | .barred => (s, { status := .denied })
  | .locked =>
    if code = s.plant.work.code then (s.withLink fun l => { l with gate := .open }, { status := .ok })
    else (s.withLink fun l => { l with gate := .barred }, { status := .denied })

/-- CD (R177). -/
def performChangeCode (code : List Byte) (p : Plant) : Performance :=
  .stored { p with work := { p.work with code := code } } .accessCode

/-- RS: answered first; the reset follows its reply (R162). -/
def performReset (_ : Plant) : Performance := .read .none

/-- CC (R165). -/
def performClearCauses (s : State) : State × Answer :=
  (s.withLink fun l =>
    { l with cause := { lastKind := l.cause.lastKind }, checkErrors := 0, overruns := 0 }, { status := .ok })

/-! ### The commands -/

/-- ID. -/
def execIdentify (env : Envelope) (s : State) : Host.Outcome State Fault Refusal :=
  .next (s.take env .id fun h => h.ask performIdentify)

/-- ST. -/
def execStatus (env : Envelope) (s : State) : Host.Outcome State Fault Refusal := .next (s.take env .st performStatus)

/-- AK. -/
def execAcknowledgeAlerts (env : Envelope) (pairs : List (Nat × Nat)) (s : State) : Host.Outcome State Fault Refusal :=
  .next (s.take env .ak fun h => h.ask (performAcknowledge pairs))

/-- UN. -/
def execUnlock (env : Envelope) (code : List Byte) (s : State) : Host.Outcome State Fault Refusal :=
  .next (s.take env .un (performUnlock code))

/-- CD. -/
def execChangeCode (env : Envelope) (code : List Byte) (s : State) : Host.Outcome State Fault Refusal :=
  .next (s.take env .cd fun h => h.ask (performChangeCode code))

/-- RS. -/
def execRsReset (env : Envelope) (s : State) : Host.Outcome State Fault Refusal :=
  .next (s.take env .rs fun h => h.ask performReset)

/-- CC. -/
def execClearCauses (env : Envelope) (s : State) : Host.Outcome State Fault Refusal :=
  .next (s.take env .cc performClearCauses)

end Sys2Proof.Machine
end

