-- ==== Sys2Proof/Machine/OutputRequests.lean ====
section
/-! DEFINITION. The requests on the outputs, the field and the interlocks: OV, OR, RF, FE, FD, RV (R127, R128, R130, R141,
R167). -/

namespace Sys2Proof.Machine

/-! ### OV, OR and RF -/

/-- The override table with one entry replaced. -/
def OverrideTable.put (t : OverrideTable) (o : OverrideOutput) (e : OverrideEntry) : OverrideTable :=
  match o with
  | .heat => { t with heat := e }
  | .spray => { t with spray := e }
  | .vent => { t with vent := e }
  | .fanRun => { t with fanRun := e }
  | .fanDir => { t with fanDir := e }

/-- The entry would override SPRAY and VENT both ON (R127). -/
def OverrideTable.conflicts (t : OverrideTable) (o : OverrideOutput) (e : OverrideEntry) : Bool :=
  match o, e with
  | .spray, .on => t.vent == .on
  | .vent, .on => t.spray == .on
  | _, _ => false

/-- OV (R127). -/
def performOverride (zone output value : Nat) (p : Plant) : Performance :=
  match zoneOf zone, overrideOutputOf output, overrideValueOf value with
  | some z, some o, some e =>
    if (p.unit z).output.overrides.conflicts o e then .refuse .conflict
    else .ok (p.overrides z fun t => t.put o e).startLapse
  | _, _, _ => .refuse .badValue

/-- The lapse timer stops when no override stands (R128). -/
def Plant.stopLapse (p : Plant) : Plant := if p.overrideStands then p else { p with lapse := none }

/-- OR (R128). -/
def performReleaseOverride (zone output : Nat) (p : Plant) : Performance :=
  match zoneOf zone, overrideOutputOf output with
  | some z, some o =>
    let q := (p.overrides z fun t => t.put o .auto).stopLapse
    .ok q (.lapseLeft q.lapse.minutesLeft)
  | _, _ => .refuse .badValue

/-- RF (R128). -/
def performRefreshOverrides (p : Plant) : Performance :=
  let q := if p.overrideStands then p.startLapse else p
  .ok q (.lapseLeft q.lapse.minutesLeft)

/-! ### FE and FD -/

/-- Auto-resume of one zone at FE (R167); the release of R111 is judged before the next zone's turn, the model's choice (log
entry 33). -/
def Plant.autoResume (p : Plant) (z : Zone) : Plant :=
  if (p.ctx z).state = .resumePending ∧ (p.items z).autoResume = true then
    match p.tryResume z with
    | .inl _ => p.raise (.zone z .resumeWaiting)
    | .inr q => q
  else p

/-- FE (R130, R167). -/
def performFieldEnable (p : Plant) : Performance :=
  if p.fieldEnabled then .read .none else .ok (({ p with fieldEnabled := true } : Plant).eachZone Plant.autoResume)

/-- Every zone is IDLE, DONE or RESUME_PENDING. -/
def Plant.allAtRest (p : Plant) : Bool := Zone.order.all fun z => (p.ctx z).state.atRest

/-- FD (R130). -/
def performFieldDisable (p : Plant) : Performance :=
  if !p.allAtRest then .refuse .wrongState
  else if !p.fieldEnabled then .read .none
  else .ok (({ p with fieldEnabled := false } : Plant).eachZone fun q z => q.output z OutputState.cut)

/-! ### RV -/

/-- RV is refused while OVERTEMP stands and the dry bulb is not known to be back (R141). -/
def Plant.recoverBlocked (p : Plant) (z : Zone) : Bool :=
  (p.unit z).causes.overtemp && !(p.unit z).dbSatisfies fun x => decide (x ≤ p.kiln.maximumDb)

/-- FAN and OVERTEMP leave the set, with the SAFE exit and the fan judged anew (R140, R141). The proof timer starts afresh where
FAN was in the set; where OVERTEMP alone was, a proof timer that runs goes on, as read from R141 (log entry 40). -/
def Plant.recover (p : Plant) (z : Zone) : Plant :=
  let q := p.changeCauses z fun c => { c with fan := false, overtemp := false }
  if (p.unit z).causes.fan then if q.shouldRun z then q.startProof z else q.zone z fun u => { u with proofOverdue := false }
  else q

/-- RV (R141). That the set goes with an OK alone, and a refusal carries its status only, is the model's reading (log entry
43). -/
def performRecover (zone : Nat) (p : Plant) : Performance :=
  match zoneOf zone with
  | none => .refuse .badValue
  | some z =>
    if (p.ctx z).state ≠ .safe then .refuse .wrongState
    else if p.recoverBlocked z then .refuse .wrongState
    else .ok (p.recover z) (.causes ((p.recover z).unit z).causes)

/-! ### The commands -/

/-- OV. -/
def execOverride (env : Envelope) (zone output value : Nat) (s : State) : Host.Outcome State Fault Refusal :=
  .next (s.take env .ov fun h => h.ask (performOverride zone output value))

/-- OR. -/
def execReleaseOverride (env : Envelope) (zone output : Nat) (s : State) : Host.Outcome State Fault Refusal :=
  .next (s.take env .or fun h => h.ask (performReleaseOverride zone output))

/-- RF. -/
def execRefreshOverrides (env : Envelope) (s : State) : Host.Outcome State Fault Refusal :=
  .next (s.take env .rf fun h => h.ask performRefreshOverrides)

/-- FE. -/
def execFieldEnable (env : Envelope) (s : State) : Host.Outcome State Fault Refusal :=
  .next (s.take env .fe fun h => h.ask performFieldEnable)

/-- FD. -/
def execFieldDisable (env : Envelope) (s : State) : Host.Outcome State Fault Refusal :=
  .next (s.take env .fd fun h => h.ask performFieldDisable)

/-- RV. -/
def execRecover (env : Envelope) (zone : Nat) (s : State) : Host.Outcome State Fault Refusal :=
  .next (s.take env .rv fun h => h.ask (performRecover zone))

end Sys2Proof.Machine
end

