-- ==== Sys2Proof/Machine/Probes.lean ====
section
/-! DEFINITION. The requests on probes and on the spot slot: PW, PR, PX, PI, SP, SR (R2, R3, R20, R22, R46 to R48). -/

namespace Sys2Proof.Machine

/-! ### PW -/

/-- A zone in which an entry may be assigned or released (R2, check 4). -/
def Plant.mayAssign (p : Plant) (z : Option Zone) : Bool :=
  match z with
  | none => true
  | some z => (p.ctx z).state.atRest

/-- The source of a new configuration of entry `i` is acceptable: judged as the table will stand (R2, check 3). -/
def Plant.sourceOk (p : Plant) (i : Fin 64) (c : ProbeConfig) : Bool :=
  match c.kind, c.source with
  | .moisture, some j => ((p.work.probes.set i c).get j).kind == .woodTemp
  | _, _ => true

/-- Another assigned entry holds the address (R2, check 5). -/
def Plant.addressTaken (p : Plant) (i : Fin 64) (c : ProbeConfig) : Bool :=
  (List.finRange 64).any fun j =>
    let d := p.work.probes.get j
    j != i && d.zone.isSome && d.bank == c.bank && d.position == c.position

/-- The refusal of a PW, by the checks of R2 in their order, after check 1 has read the configuration. -/
def Plant.probeRefusal (p : Plant) (i : Fin 64) (c : ProbeConfig) : Option Status :=
  if c.zone.isSome && !p.exists c then some .badValue
  else if !p.sourceOk i c then some .badValue
  else if !(p.mayAssign (p.work.probes.get i).zone && p.mayAssign c.zone) then some .wrongState
  else if c.zone.isSome && p.addressTaken i c then some .conflict
  else none

/-- A spot request that waits for entry `i` is dropped when the entry's address no longer exists (R21). -/
def Plant.dropSpot (p : Plant) (i : Fin 64) (c : ProbeConfig) : Plant :=
  if p.spot = .waiting i ∧ p.exists c = false then { p with spot := .empty } else p

/-- A performed PW: the configuration replaced, the record reset or dropped, and a measurement in flight of the entry made
stale (R3, R12, R21). -/
def Plant.writeProbe (p : Plant) (i : Fin 64) (c : ProbeConfig) : Plant :=
  (({ p with
      work := { p.work with probes := p.work.probes.set i c }
      records := p.records.set i (if c.zone.isSome then some {} else none) } : Plant).markStale i fun _ => true).dropSpot
    i c

/-- PW (R2, R3). -/
def performProbeWrite (entry : Nat) (fields : RawProbe) (p : Plant) : Performance :=
  match indexOf 64 entry, probeConfigOf fields with
  | some i, some c =>
    match p.probeRefusal i c with
    | some status => .refuse status
    | none => .stored (p.writeProbe i c) .probeTable
  | _, _ => .refuse .badValue

/-! ### PR, PX, PI -/

/-- PR (R48). -/
def performProbeRead (entry : Nat) (p : Plant) : Performance :=
  match indexOf 64 entry with
  | some i => .read (.probe (p.work.probes.get i) (p.records.get i))
  | none => .refuse .badValue

/-- PX (R46). -/
def performExcludeProbe (entry : Nat) (p : Plant) : Performance :=
  match indexOf 64 entry with
  | none => .refuse .badValue
  | some i =>
    match p.records.get i with
    | none => .refuse .wrongState
    | some r =>
      match r.state with
      | .unreachable => .refuse .wrongState
      | .excluded => .read .none
      | _ =>
        .ok
          (({ p with records := p.records.set i (some r.exclude) } : Plant).markStale i fun who =>
            match who with
            | .zone _ => true
            | .spot => false)

/-- PI (R47). -/
def performReinstateProbe (entry : Nat) (p : Plant) : Performance :=
  match indexOf 64 entry with
  | none => .refuse .badValue
  | some i =>
    match p.records.get i with
    | none => .refuse .wrongState
    | some r =>
      match r.state with
      | .excluded => .ok { p with records := p.records.set i (some r.reinstate) }
      | .failed => .ok { p with records := p.records.set i (some r.reinstate) }
      | _ => .refuse .wrongState

/-! ### SP, SR -/

/-- SP (R20): the first case that applies decides; a taken request makes the slot a requester (R16). -/
def performSpotRequest (entry : Nat) (p : Plant) : Performance :=
  match indexOf 64 entry with
  | none => .refuse .badValue
  | some i =>
    if !p.exists (p.work.probes.get i) then .refuse .badValue
    else if !p.work.config.scan.spotEnabled then .refuse .wrongState
    else
      match p.spot with
      | .empty => .ok ({ p with spot := .waiting i } : Plant).arbitrate
      | _ => .refuse .slotBusy

/-- SR (R22). -/
def performSpotResult (p : Plant) : Performance :=
  match p.spot with
  | .empty => .refuse .wrongState
  | .waiting i => .answered { status := .pending, content := .spotPending i }
  | .measuring i => .answered { status := .pending, content := .spotPending i }
  | .done r => .ok { p with spot := .empty } (.spotReading r)

/-! ### The commands -/

/-- PW. -/
def execProbeWrite (env : Envelope) (entry : Nat) (fields : RawProbe) (s : State) : Host.Outcome State Fault Refusal :=
  .next (s.take env .pw fun h => h.ask (performProbeWrite entry fields))

/-- PR. -/
def execProbeRead (env : Envelope) (entry : Nat) (s : State) : Host.Outcome State Fault Refusal :=
  .next (s.take env .pr fun h => h.ask (performProbeRead entry))

/-- PX. -/
def execExcludeProbe (env : Envelope) (entry : Nat) (s : State) : Host.Outcome State Fault Refusal :=
  .next (s.take env .px fun h => h.ask (performExcludeProbe entry))

/-- PI. -/
def execReinstateProbe (env : Envelope) (entry : Nat) (s : State) : Host.Outcome State Fault Refusal :=
  .next (s.take env .pi fun h => h.ask (performReinstateProbe entry))

/-- SP. -/
def execSpotRequest (env : Envelope) (entry : Nat) (s : State) : Host.Outcome State Fault Refusal :=
  .next (s.take env .sp fun h => h.ask (performSpotRequest entry))

/-- SR. -/
def execSpotResult (env : Envelope) (s : State) : Host.Outcome State Fault Refusal :=
  .next (s.take env .sr fun h => h.ask performSpotResult)

end Sys2Proof.Machine
end

