-- ==== Sys2Proof/Machine/Replies.lean ====
section
/-! DEFINITION. The bytes of a reply: every answer's content by the encodings of R175, and the frame that carries it (R170,
R173, R174). Where R175 leaves a layout open, log entry 14 says what is taken here. -/

namespace Sys2Proof.Machine

/-! ### Fields (R175) -/

/-- A one-byte number. -/
def num8 (n : Nat) : List Byte := [b8 n]

/-- A value of an enumeration, by its number. -/
def code (n : Nat) : List Byte := [b8 n]

/-- "yes, no", "on, off", "ACTIVE, INACTIVE": the first listed value is 0 (log entry 9). -/
def mark (b : Bool) : List Byte := [if b then 0 else 1]

/-- An optional value of `width` bytes. -/
def optional {α : Type} (width : Nat) (f : α → List Byte) : Option α → List Byte
  | none => 0 :: List.replicate width 0
  | some x => 1 :: f x

/-- A set, least significant bit first. -/
def setNumber : List Bool → Nat
  | [] => 0
  | b :: bs => (if b then 1 else 0) + 2 * setNumber bs

/-- A one-byte set. -/
def set8 (bs : List Bool) : List Byte := [b8 (setNumber bs)]

/-- A list: its length and its members. -/
def listed {α : Type} (f : α → List Byte) (xs : List α) : List Byte := b8 xs.length :: xs.flatMap f

/-! ### Codes, numbered in the order in which the manual lists the values -/

/-- R174. -/
def Status.code : Status → Nat
  | .ok => 0
  | .clamped => 1
  | .pending => 2
  | .denied => 3
  | .wrongState => 4
  | .badValue => 5
  | .badForm => 6
  | .slotBusy => 7
  | .conflict => 8
  | .badSchedule => 9

/-- R73. -/
def ZoneState.code : ZoneState → Nat
  | .idle => 0
  | .starting => 1
  | .phase p => 2 + p.code
  | .held => 7
  | .safe => 8
  | .done => 9
  | .resumePending => 10

/-- R177. -/
def Gate.code : Gate → Nat
  | .locked => 0
  | .open => 1
  | .barred => 2

/-- R165. -/
def ResetKind.code : ResetKind → Nat
  | .powerOn => 0
  | .pin => 1
  | .commanded => 2

/-- R73. -/
def ExitReason.code : ExitReason → Nat
  | .sensorMet => 0
  | .timeOnly => 1
  | .maxTime => 2
  | .skipped => 3

/-- R80. -/
def StartSource.code : StartSource → Nat
  | .host => 0
  | .line => 1
  | .timer => 2
  | .group => 3

/-- R80. -/
def FailureCause.code : FailureCause → Nat
  | .fieldDisabled => 0
  | .badSchedule => 1
  | .timeout => 2

/-- R66, R67. -/
def FindingReason.code : FindingReason → Nat
  | .noEntry => 0
  | .blankRecord => 1
  | .noMarker => 2
  | .stepOutside => 3

/-- R97. -/
def RunKind.code : RunKind → Nat
  | .started => 0
  | .stepLeft => 1
  | .held => 2
  | .resumed => 3
  | .safeEntered => 4
  | .safeLeft => 5
  | .aborted => 6
  | .done => 7
  | .restarted => 8

/-- R38. -/
def ProbeState.code : ProbeState → Nat
  | .unseen => 0
  | .valid => 1
  | .held => 2
  | .short => 3
  | .open => 4
  | .failed => 5
  | .excluded => 6
  | .unreachable => 7

/-- R22. -/
def Classification.code : Classification → Nat
  | .inRange => 0
  | .short => 1
  | .open => 2

/-- R1. -/
def ProbeKind.code : ProbeKind → Nat
  | .moisture => 0
  | .woodTemp => 1

/-- R56. -/
def SensorUse.code : SensorUse → Nat
  | .used => 0
  | .notUsed => 1

/-- R114. -/
def SensorStatus.code : SensorStatus → Nat
  | .unsampled => 0
  | .good => 1
  | .faulty => 2

/-- R124. -/
def FanMachine.code : FanMachine → Nat
  | .stopped => 0
  | .runFwd => 1
  | .dwellToRev => 2
  | .runRev => 3
  | .dwellToFwd => 4

/-- R124. -/
def Direction.code : Direction → Nat
  | .forward => 0
  | .reverse => 1

/-- R127. -/
def OverrideEntry.code : OverrideEntry → Nat
  | .auto => 0
  | .on => 1
  | .off => 2

/-- R146. -/
def LineRole.code : LineRole → Nat
  | .none => 0
  | .door => 1
  | .fanProof => 2
  | .startButton => 3
  | .holdIn => 4
  | .alarmOut => 5
  | .generalIn => 6
  | .generalOut => 7

/-- R146. -/
def Polarity.code : Polarity → Nat
  | .activeHigh => 0
  | .activeLow => 1

/-- R176. -/
def SafeVent.code : SafeVent → Nat
  | .open => 0
  | .closed => 1

/-- R176. -/
def SafeFan.code : SafeFan → Nat
  | .run => 0
  | .stop => 1

/-- R19. -/
def ScanMode.code : ScanMode → Nat
  | .equal => 0
  | .favor => 1

/-- The mux arrangement: the rows of the table of R5. -/
def Straps.arrangement (s : Straps) : Nat := if s.mxs = 0 then 0 else if s.mxs = 1 then 1 else 2

/-! ### Compound items -/

/-- The nine fields of a record (R56, R175). -/
def StepRecord.bytes (r : StepRecord) : List Byte :=
  mark r.last ++ bs16 r.db ++ bs16 r.depression ++ num8 r.rampRate ++ b16 r.mcThreshold ++ code r.sensor.code ++
    b16 r.minTime ++ b16 r.maxTime ++ b16 r.fanInterval

/-- The form byte and the fields of a record (R175). -/
def recordBytes : Option StepRecord → List Byte
  | none => [0]
  | some r => 1 :: r.bytes

/-- An index. -/
def index {n : Nat} (i : Fin n) : List Byte := num8 i.val

/-- Five entries (R60). -/
def PhaseEntries.bytes (e : PhaseEntries) : List Byte := Phase.order.flatMap fun p => optional 1 index (e.get p)

/-- A validation finding (R66). -/
def Finding.bytes (f : Finding) : List Byte := code f.phase.code ++ code f.reason.code ++ optional 1 index f.record

/-- Flags of a moisture reading (R36). -/
def MoistureFlags.bytes (f : MoistureFlags) : List Byte := set8 [f.aboveRange, f.belowRange, f.uncorrected]

/-- A CMC with its flag (R51). -/
def Cmc.bytes (c : Cmc) : List Byte := bs16 c.value ++ set8 [c.aboveRange]

/-- A last start failure (R80). -/
def StartFailure.bytes (f : StartFailure) : List Byte :=
  code f.source.code ++ code f.cause.code ++ optional 4 Finding.bytes f.finding ++
    optional 1 (fun u => set8 [u.door, u.fan, u.probes, u.climate, u.group]) f.unmet

/-- A run record entry of 13 bytes (R97). -/
def RunEntry.bytes (e : RunEntry) : List Byte :=
  code e.kind.code ++ b16 e.minute ++ num8 ((e.step.map Fin.val).getD 0) ++
    optional 1 (fun r => code r.code) e.reason ++ optional 3 Cmc.bytes e.cmc ++ optional 2 bs16 e.dmc

/-- A zone, by its number. -/
def Zone.bytes (z : Zone) : List Byte := code z.code

/-- The configuration fields of an entry (R48). -/
def ProbeConfig.bytes (c : ProbeConfig) : List Byte :=
  optional 1 Zone.bytes c.zone ++ code c.kind.code ++ index c.bank ++ index c.position ++ index c.group ++
    optional 1 index c.source

/-- A runtime record (R48). -/
def ProbeRecord.bytes (r : ProbeRecord) : List Byte :=
  code r.state.code ++ optional 2 bs16 r.lastRaw ++ optional 2 bs16 r.lastAccepted ++ r.flags.bytes ++
    optional 2 bs16 r.candidate ++ num8 r.heldCount ++ num8 r.failStreak ++ optional 2 b16 r.runMinute

/-- A spot result (R22): the flags belong to a MOISTURE value alone. -/
def SpotReading.bytes (r : SpotReading) : List Byte :=
  index r.entry ++ code r.kind.code ++ bs16 r.raw ++ code r.classification.code ++
    match r.kind with
    | .moisture => optional 3 (fun (x : Int × MoistureFlags) => bs16 x.1 ++ x.2.bytes) r.value
    | .woodTemp => optional 2 (fun (x : Int × MoistureFlags) => bs16 x.1) r.value

/-- An aggregate (R54). -/
def Aggregate.bytes (a : Aggregate) : List Byte :=
  num8 a.count ++ optional 3 Cmc.bytes a.cmc ++ optional 2 bs16 a.dmc ++ listed index a.contributing ++
    optional 2 bs16 a.zwt ++ mark a.blind

/-- A safe-cause set (R133). -/
def SafeCauses.bytes (c : SafeCauses) : List Byte := set8 [c.door, c.sensor, c.fan, c.overtemp]

/-- A sensor record (R131). -/
def SensorRecord.bytes (r : SensorRecord) : List Byte :=
  code r.status.code ++ optional 2 bs16 r.value ++ num8 r.goodStreak

/-- A time-proportioned output (R131): pin level, automatic level, on-time, override entry. -/
def outputBytes (pin : Bool) (o : AutoOutput) (e : OverrideEntry) : List Byte :=
  mark pin ++ mark o.level ++ b16 o.onTime ++ code e.code

/-- KILN in the order of R176. -/
def KilnConfig.bytes (c : KilnConfig) : List Byte :=
  bs16 c.maximumDb ++ bs16 c.overtempMargin ++ code c.safeVent.code ++ code c.safeFan.code ++ num8 c.startTimeout ++
    num8 c.overrideTimeout

/-- ZONE in the order of R176. -/
def ZoneConfig.bytes (c : ZoneConfig) : List Byte :=
  num8 c.passInterval ++ num8 c.k ++ num8 c.nmin ++ num8 c.jumpLimit ++ num8 c.failCount ++ bs16 c.pbHeat ++
    bs16 c.pbHum ++ b16 c.pulsePeriod ++ num8 c.proofDelay ++ b16 c.dwell ++ bs16 c.warmupTolerance ++
    num8 c.equalizeSpread ++ set8 [c.startMask.host, c.startMask.line, c.startMask.timer] ++
    set8 [c.preconditions.door, c.preconditions.fan, c.preconditions.probes] ++ mark c.grouped ++ mark c.autoResume

/-- WINDOW in the order of R8. -/
def WindowConfig.bytes (c : WindowConfig) : List Byte :=
  num8 c.bank ++ num8 c.first ++ num8 c.count ++ b16 c.settle ++ num8 c.samples ++ mark c.switchSettle

/-- LINE in the order of R146. -/
def LineConfig.bytes (c : LineConfig) : List Byte :=
  code c.role.code ++ Zone.bytes c.zone ++ code c.polarity.code ++ num8 c.debounce ++ mark c.safeActive ++ mark c.keep

/-- The ID items (R182). -/
def identityBytes (s : Straps) : List Byte :=
  [0x5A, 0x65, 0x63, 0x6A, 0x6F, 0x72] ++ [0x5A, 0x4B, 0x2D, 0x34, 0x34, 0x30] ++ [Config.revisionLevel] ++
    num8 s.station ++ num8 s.bd.toNat ++ num8 s.arrangement ++ num8 64 ++ num8 4 ++ num8 16 ++ num8 128

/-- The ST items (R180). -/
def StatusReport.bytes (r : StatusReport) : List Byte :=
  code r.gate.code ++ mark r.cause.powerOn ++ mark r.cause.pin ++ mark r.cause.commanded ++
    code r.cause.lastKind.code ++ b16 r.checkErrors ++ b16 r.overruns ++ mark r.fieldEnabled ++
    (Zone.order.flatMap fun z =>
      code (r.zones.get z).1.code ++ optional 1 (fun p : Phase => code p.code) (r.zones.get z).2) ++
    listed (fun a => [b8 a.scopeCode, b8 a.kindCode]) r.alerts

/-- A line of LR (R154); HIGH is 0 and LOW is 1. -/
def LineReading.bytes (r : LineReading) : List Byte :=
  mark r.latch ++ mark r.pin ++ mark r.debounced ++ mark r.settled ++ mark r.timing

/-- The ZR items in the order of R101, with those of R113 after the context (R54, R131, R144). The level of the FAN-DIR pin is
sent as a direction, forward 0 and reverse 1, the model's choice (log entry 34). Eligible with its exit reason (R73) and the
timers shown in minutes are sent as optional values, absent where eligible is no and where a timer is stopped, and FAN-RUN and
FAN-DIR are each sent as the pin level and then its override entry, one after the other, the model's reading (log entry 14). -/
def ZoneReading.bytes (r : ZoneReading) : List Byte :=
  code r.state.code ++ optional 1 (fun p : Phase => code p.code) r.underlying ++ set8 [r.holds.host, r.holds.line] ++
    mark r.holdPending ++ optional 1 index r.stepIndex ++ b16 r.stepClock ++ b16 r.runClock ++
    optional 1 (fun e => code e.code) r.eligible ++ mark r.waiting ++ mark r.detached ++
    optional 1 num8 r.startTimeout ++ optional 9 StartFailure.bytes r.lastFailure ++ mark r.grouped ++
    b16 r.waitCount ++ optional 15 StepRecord.bytes r.activeCopy ++ r.aggregate.bytes ++
    optional 2 bs16 r.dbSetpoint ++ optional 2 bs16 r.wbSetpoint ++ bs16 r.reportedDb ++ bs16 r.reportedWb ++
    num8 r.rampRate ++ mark r.rampInFlight ++ r.db.bytes ++ r.wb.bytes ++
    outputBytes r.pins.heat r.heat r.overrides.heat ++ outputBytes r.pins.spray r.spray r.overrides.spray ++
    outputBytes r.pins.vent r.vent r.overrides.vent ++ code r.fan.machine.code ++ code r.fan.direction.code ++
    b16 r.fan.reversalCount ++ b16 r.fan.interval ++ mark r.pins.fanRun ++ code r.overrides.fanRun.code ++
    code (if r.pins.fanDir then 1 else 0) ++ code r.overrides.fanDir.code ++ mark r.proofRunning ++
    mark r.fieldEnabled ++ optional 1 num8 r.lapse ++ r.causes.bytes ++ mark r.conditions.door ++
    mark r.conditions.sensor ++ mark r.conditions.overtemp ++ mark r.conditions.proofOverdue

/-! ### Replies -/

/-- The content of an answer. The remaining minutes of ds, or and rf are optional values, absent where the timer is stopped, the
model's reading (log entry 14). -/
def Content.bytes : Content → List Byte
  | .none => []
  | .identity s => identityBytes s
  | .status r => r.bytes
  | .alertsLeft n => num8 n
  | .kiln c => c.bytes
  | .zoneItem c => c.bytes
  | .group c => mark c.holdTogether ++ b16 c.waitLimit
  | .scan c => code c.mode.code ++ Zone.bytes c.favoured ++ mark c.spotEnabled
  | .window c => c.bytes
  | .default c => b16 c.settle ++ num8 c.samples
  | .line c => c.bytes
  | .probe c r =>
    c.bytes ++
      match r with
      | Option.none => [0]
      | Option.some x => 1 :: x.bytes
  | .spotPending i => index i
  | .spotReading r => r.bytes
  | .species g => b16 g.k ++ g.knots.cells.flatMap b16
  | .recordWritten i => index i
  | .recordRead i r => index i ++ recordBytes r
  | .entries e => e.bytes
  | .finding f => f.bytes
  | .causes c => c.bytes
  | .delayLeft m => optional 2 b16 m
  | .lapseLeft m => optional 1 num8 m
  | .latches l => b16 (setNumber l.cells)
  | .lines l => l.cells.flatMap LineReading.bytes
  | .zone r => r.bytes
  | .runRecord dropped length page => b16 dropped ++ num8 length ++ page.flatMap RunEntry.bytes

/-- The payload of a reply (R173). -/
def Answer.payload (a : Answer) : List Byte := b8 a.status.code :: a.content.bytes

/-- An ASCII capital made lower case; any other byte unchanged (R173). -/
def lowerCase (b : Byte) : Byte := if 0x41 ≤ b.toNat ∧ b.toNat ≤ 0x5A then b + 0x20 else b

/-- A frame of the layout of R170: sync, station, n, kind, tag, payload, CRC. -/
def frameBytes (station : Nat) (kind : Byte × Byte) (tag : Nat) (payload : List Byte) : List Byte :=
  let body := [b8 station, b8 (payload.length + 3), kind.1, kind.2, b8 tag] ++ payload
  0xC3 :: body ++ crcBytes (crcOf body)

/-- The reply to the unanswered request (R173). -/
def Unanswered.reply (u : Unanswered) (straps : Straps) : List Byte :=
  frameBytes straps.station (lowerCase u.kind.1, lowerCase u.kind.2) u.tag u.answer.payload

end Sys2Proof.Machine
end

