-- ==== Sys2Proof/Machine/ScheduleRequests.lean ====
section
/-! DEFINITION. The requests on the Schedule Store: SC, SW, SN, EW, ER, RL (R60 to R65, R69, R70). -/

namespace Sys2Proof.Machine

/-! ### The cursor, SW and SN -/

/-- The cursor one further, from 127 to 0 (R63, R64). -/
def nextCursor (c : Fin 128) : Fin 128 := ⟨(c.val + 1) % 128, Nat.mod_lt _ (by decide)⟩

/-- SC (R62). -/
def performSetCursor (index : Nat) (p : Plant) : Performance :=
  match indexOf 128 index with
  | some i => .ok { p with cursor := i }
  | none => .refuse .badValue

/-- An SW of a guarded target is allowed: it is not blank and keeps the last-in-phase (R65). -/
def guardedWriteOk (present offered : Option StepRecord) : Bool :=
  match present, offered with
  | some r, some x => x.last == r.last
  | _, _ => false

/-- A performed SW: the target replaced and the cursor advanced (R63). -/
def Plant.writeTarget (p : Plant) (record : Option StepRecord) : Plant :=
  { p with
    work := { p.work with records := p.work.records.set p.cursor record }
    cursor := nextCursor p.cursor }

/-- An SW whose offered record is consistent (R63, check 2). -/
def Plant.offer (p : Plant) (record : Option StepRecord) : Performance :=
  if p.guarded p.cursor && !guardedWriteOk (p.work.records.get p.cursor) record then .refuse .wrongState
  else .stored (p.writeTarget record) .schedule .ok (.recordWritten p.cursor)

/-- SW (R63). -/
def performWriteRecord (record : Option RawStep) (p : Plant) : Performance :=
  match record with
  | none => p.offer none
  | some raw =>
    match stepRecordOf raw with
    | some r => p.offer (some r)
    | none => .refuse .badValue

/-- SN (R64). -/
def performReadRecord (p : Plant) : Performance :=
  .ok { p with cursor := nextCursor p.cursor } (.recordRead p.cursor (p.work.records.get p.cursor))

/-! ### EW and ER -/

/-- EW (R61). -/
def performEntryTableWrite (zone : Nat) (entries : RawEntries) (p : Plant) : Performance :=
  match zoneOf zone, entriesOf entries with
  | some z, some e =>
    if (p.ctx z).state.atRest then
      .stored { p with work := { p.work with entries := p.work.entries.set z e } } .entryTables
    else .refuse .wrongState
  | _, _ => .refuse .badValue

/-- ER (R60). -/
def performEntryTableRead (zone : Nat) (p : Plant) : Performance :=
  match zoneOf zone with
  | some z => .read (.entries (p.work.entries.get z))
  | none => .refuse .badValue

/-! ### RL -/

/-- The reload of the zone's active step copy from a record, with its effect on the climate and the fans (R69, R70). -/
def Plant.reload (p : Plant) (z : Zone) (r : StepRecord) : Plant :=
  let q := (p.context z fun c => { c with activeCopy := some r }).formSetpoints z r
  let t := if (p.ctx z).state.inPhase then q.climate z ClimateState.ramp else q
  t.setInterval z r.fanInterval

/-- A performed RL: the reload, a ramp it completes, and the eligibility under the new copy (R69, R70). -/
def Plant.reloadStep (p : Plant) (z : Zone) : Plant :=
  match (p.ctx z).stepIndex.bind p.work.records.get with
  | none => p
  | some r => (p.reportRamp (p.reload z r) z).evaluate z

/-- RL (R69). -/
def performReloadStep (zone : Nat) (p : Plant) : Performance :=
  match zoneOf zone with
  | none => .refuse .badValue
  | some z => if (p.ctx z).state.runs then .ok (p.reloadStep z) else .refuse .wrongState

/-! ### The commands -/

/-- SC. -/
def execSetCursor (env : Envelope) (index : Nat) (s : State) : Host.Outcome State Fault Refusal :=
  .next (s.take env .sc fun h => h.ask (performSetCursor index))

/-- SW. -/
def execWriteRecord (env : Envelope) (record : Option RawStep) (s : State) : Host.Outcome State Fault Refusal :=
  .next (s.take env .sw fun h => h.ask (performWriteRecord record))

/-- SN. -/
def execReadRecord (env : Envelope) (s : State) : Host.Outcome State Fault Refusal :=
  .next (s.take env .sn fun h => h.ask performReadRecord)

/-- EW. -/
def execEntryTableWrite (env : Envelope) (zone : Nat) (entries : RawEntries) (s : State) :
    Host.Outcome State Fault Refusal :=
  .next (s.take env .ew fun h => h.ask (performEntryTableWrite zone entries))

/-- ER. -/
def execEntryTableRead (env : Envelope) (zone : Nat) (s : State) : Host.Outcome State Fault Refusal :=
  .next (s.take env .er fun h => h.ask (performEntryTableRead zone))

/-- RL. -/
def execReloadStep (env : Envelope) (zone : Nat) (s : State) : Host.Outcome State Fault Refusal :=
  .next (s.take env .rl fun h => h.ask (performReloadStep zone))

end Sys2Proof.Machine
end

