-- ==== Sys2Proof/Machine/SpeciesRequests.lean ====
section
/-! DEFINITION. The requests on the species table: GW, GR (R32 to R34). -/

namespace Sys2Proof.Machine

/-- The record of an entry after a GW of group `i` (R33): the MC values of an assigned MOISTURE entry of the group are
clamped to the new curve. -/
def Plant.clampRecord (p : Plant) (i : Fin 8) (g : SpeciesGroup) (j : Fin 64) : Option ProbeRecord :=
  let c := p.work.probes.get j
  if c.kind = .moisture ∧ c.group = i then (p.records.get j).map fun r => r.clampTo g else p.records.get j

/-- A performed GW (R32, R33). -/
def Plant.writeSpecies (p : Plant) (i : Fin 8) (g : SpeciesGroup) : Plant :=
  { p with
    work := { p.work with species := p.work.species.set i g }
    records := Table.tabulate 64 (p.clampRecord i g) }

/-- GW (R32). -/
def performSpeciesWrite (group k : Nat) (knots : List Nat) (p : Plant) : Performance :=
  match indexOf 8 group, speciesOf k knots with
  | some i, some g => .stored (p.writeSpecies i g) .species
  | _, _ => .refuse .badValue

/-- GR (R34). -/
def performSpeciesRead (group : Nat) (p : Plant) : Performance :=
  match indexOf 8 group with
  | some i => .read (.species (p.work.species.get i))
  | none => .refuse .badValue

/-- GW. -/
def execSpeciesWrite (env : Envelope) (group k : Nat) (knots : List Nat) (s : State) :
    Host.Outcome State Fault Refusal :=
  .next (s.take env .gw fun h => h.ask (performSpeciesWrite group k knots))

/-- GR. -/
def execSpeciesRead (env : Envelope) (group : Nat) (s : State) : Host.Outcome State Fault Refusal :=
  .next (s.take env .gr fun h => h.ask (performSpeciesRead group))

end Sys2Proof.Machine
end

