-- ==== Sys2Proof/Machine/ZoneRequests.lean ====
section
/-! DEFINITION. The requests on the Zone Sequencers: GO, HD, RM, SK, AB, CL, DS, ZR, RR (R77, R85, R89, R90, R92 to R94, R99,
R101, R105, R109). -/

namespace Sys2Proof.Machine

/-! ### GO -/

/-- GO (R77, R105). -/
def performStartZone (zone : Nat) (p : Plant) : Performance :=
  match zoneOf zone with
  | none => .refuse .badValue
  | some z =>
    if !p.fieldEnabled then .refuse .wrongState
    else if !(p.items z).startMask.host then .refuse .wrongState
    else if (p.ctx z).state ≠ .idle then .refuse .wrongState
    else
      match p.validate z with
      | some f => .answered { status := .badSchedule, content := .finding f }
      | none => .ok (if p.grouped z then p.groupStart .host (· == z) else p.startAlone z .host)

/-! ### HD and RM -/

/-- The other members that a request on `z` reaches: with hold-together, every other member in a phase state or HELD
(R109). -/
def Plant.reached (p : Plant) (z : Zone) : List Zone :=
  if p.work.config.group.holdTogether && p.grouped z then
    Zone.order.filter fun y => y != z && p.grouped y && (p.ctx y).state.runs
  else []

/-- HOST joins the hold-cause set of a zone. -/
def Plant.hostHold (p : Plant) (z : Zone) : Plant := p.joinHold z fun h => { h with host := true }

/-- HD: a named zone, or 4 for ALL (R90, R109). The named zone is treated first and the others in the order A to D, the model's
choice (log entry 32). -/
def performHold (target : Nat) (p : Plant) : Performance :=
  if target = 4 then .ok ((Zone.order.filter fun z => (p.ctx z).state.runs).foldl Plant.hostHold p).judgeRelease
  else
    match zoneOf target with
    | none => .refuse .badValue
    | some z =>
      if (p.ctx z).state.runs then .ok ((z :: p.reached z).foldl Plant.hostHold p).judgeRelease
      else .refuse .wrongState

/-- HOST leaves the hold-cause set of a zone in HELD or hold-pending (R92); a zone in a phase state without hold-pending is
not affected. -/
def Plant.hostResume (p : Plant) (z : Zone) : Plant :=
  if (p.ctx z).state = .held ∨ (p.ctx z).holdPending then p.leaveHold z fun h => { h with host := false } else p

/-- RM (R92, R109). The named zone is treated first and the others in the order A to D, the model's choice (log entry 32). -/
def performResume (zone : Nat) (p : Plant) : Performance :=
  match zoneOf zone with
  | none => .refuse .badValue
  | some z =>
    if !p.fieldEnabled then .refuse .wrongState
    else
      match (p.ctx z).state with
      | .resumePending =>
        match p.tryResume z with
        | .inl f => .answered { status := .badSchedule, content := .finding f }
        | .inr q => .ok q
      | .held => .ok ((z :: p.reached z).foldl Plant.hostResume p).judgeRelease
      | .phase _ => .ok ((z :: p.reached z).foldl Plant.hostResume p).judgeRelease
      | _ => .refuse .wrongState

/-! ### SK, AB and CL -/

/-- SK (R93, R110). -/
def performSkip (zone : Nat) (p : Plant) : Performance :=
  match zoneOf zone with
  | none => .refuse .badValue
  | some z =>
    if (p.ctx z).state.inPhase && !(p.ctx z).holdPending then .ok (p.becomeEligible z .skipped).judgeRelease
    else .refuse .wrongState

/-- An abort from a phase state or HELD over phase `ph` (R94): into COOLDOWN, or from COOLDOWN into IDLE. A run whose COOLDOWN has
no entry, which validation rules out, goes to IDLE, the model's choice (log entry 35). -/
def Plant.abortRun (p : Plant) (z : Zone) (ph : Phase) : Plant :=
  let q := p.context z fun c =>
    { c with holds := {}, holdPending := false, eligible := none, waiting := false, waitCount := 0 }
  let r := q.record z .aborted
  if ph = .cooldown then r.enterIdle z
  else
    match (p.work.entries.get z).cooldown with
    | some i => r.enterStep z .cooldown i .current
    | none => r.enterIdle z

/-- AB (R94); the group is judged on what the departure leaves (R107, R111). -/
def performAbort (zone : Nat) (p : Plant) : Performance :=
  match zoneOf zone with
  | none => .refuse .badValue
  | some z =>
    match (p.ctx z).state, (p.ctx z).currentPhase with
    | .phase ph, _ => .ok (p.abortRun z ph).judgeRelease
    | .held, some ph => .ok (p.abortRun z ph).judgeRelease
    | .held, none => .ok ((p.record z .aborted).enterIdle z).judgeRelease
    | .safe, _ => .ok ((p.record z .aborted).enterIdle z).judgeRelease
    | .starting, _ => .ok (p.enterIdle z).judgeGroup
    | .resumePending, _ => .ok (p.enterIdle z)
    | .idle, _ => .refuse .wrongState
    | .done, _ => .refuse .wrongState

/-- CL (R89). -/
def performClearDone (zone : Nat) (p : Plant) : Performance :=
  match zoneOf zone with
  | none => .refuse .badValue
  | some z => if (p.ctx z).state = .done then .ok (p.enterIdle z) else .refuse .wrongState

/-! ### DS (R85) -/

/-- The reply of every DS: the remaining minutes after the request. -/
def Plant.delayReply (p : Plant) : Content := .delayLeft p.delayedStart.minutesLeft

/-- DS with minutes. -/
def performDelayedStartMinutes (minutes : Nat) (p : Plant) : Performance :=
  if 1 ≤ minutes ∧ minutes ≤ 10080 then
    let q : Plant := { p with delayedStart := Timer.minutes minutes }
    .ok q q.delayReply
  else .refuse .badValue

/-- DS CANCEL. -/
def performDelayedStartCancel (p : Plant) : Performance :=
  let q : Plant := { p with delayedStart := none }
  .ok q q.delayReply

/-- DS QUERY. -/
def performDelayedStartQuery (p : Plant) : Performance := .read p.delayReply

/-! ### ZR and RR -/

/-- The start timeout that a zone shows: for a member of the starting set, the group's (R106, R113). -/
def Plant.startTimeoutLeft (p : Plant) (z : Zone) : Option Nat :=
  if p.grouped z && (p.ctx z).state == .starting then p.groupTimeout.minutesLeft else (p.ctx z).startTimeout.minutesLeft

/-- The conditions of the four causes (R144). -/
def Plant.causeConditions (p : Plant) (z : Zone) : CauseConditions where
  door := p.doorOpen
  sensor := (p.unit z).sensorFault
  overtemp := (p.unit z).overtemp p.kiln
  proofOverdue := (p.unit z).proofOverdue

/-- What ZR returns (R54, R101, R113, R131, R144). -/
def Plant.readZone (p : Plant) (z : Zone) : ZoneReading :=
  let u := p.unit z
  { state := u.ctx.state
    underlying := u.ctx.underlying
    holds := u.ctx.holds
    holdPending := u.ctx.holdPending
    stepIndex := u.ctx.stepIndex
    stepClock := u.ctx.stepClock
    runClock := u.ctx.runClock
    eligible := u.ctx.eligible
    waiting := u.ctx.waiting
    detached := u.ctx.detached
    startTimeout := p.startTimeoutLeft z
    lastFailure := u.ctx.lastFailure
    grouped := p.grouped z
    waitCount := u.ctx.waitCount
    activeCopy := u.ctx.activeCopy
    aggregate := u.aggregate
    dbSetpoint := u.climate.dbSetpoint
    wbSetpoint := u.climate.wbSetpoint
    reportedDb := reported u.climate.dbTarget
    reportedWb := reported u.climate.wbTarget
    rampRate := u.climate.rampRate
    rampInFlight := u.ramping
    db := u.climate.db
    wb := u.climate.wb
    heat := u.output.heat
    spray := u.output.spray
    vent := u.output.vent
    overrides := u.output.overrides
    pins := u.output.pins
    fan := u.output.fan
    proofRunning := u.output.proofTimer.isSome
    fieldEnabled := p.fieldEnabled
    lapse := p.lapse.minutesLeft
    causes := u.causes
    conditions := p.causeConditions z }

/-- ZR (R101). -/
def performZoneRead (zone : Nat) (p : Plant) : Performance :=
  match zoneOf zone with
  | none => .refuse .badValue
  | some z => .read (.zone (p.readZone z))

/-- RR: up to 12 entries from the start position (R99). -/
def performRunRecordRead (zone position : Nat) (p : Plant) : Performance :=
  match zoneOf zone with
  | none => .refuse .badValue
  | some z =>
    if position ≤ 47 then
      let c := p.ctx z
      .read (.runRecord c.dropped c.runRecord.length ((c.runRecord.drop position).take 12))
    else .refuse .badValue

/-! ### The commands -/

/-- GO. -/
def execStartZone (env : Envelope) (zone : Nat) (s : State) : Host.Outcome State Fault Refusal :=
  .next (s.take env .go fun h => h.ask (performStartZone zone))

/-- HD. -/
def execHold (env : Envelope) (target : Nat) (s : State) : Host.Outcome State Fault Refusal :=
  .next (s.take env .hd fun h => h.ask (performHold target))

/-- RM. -/
def execResume (env : Envelope) (zone : Nat) (s : State) : Host.Outcome State Fault Refusal :=
  .next (s.take env .rm fun h => h.ask (performResume zone))

/-- SK. -/
def execSkip (env : Envelope) (zone : Nat) (s : State) : Host.Outcome State Fault Refusal :=
  .next (s.take env .sk fun h => h.ask (performSkip zone))

/-- AB. -/
def execAbort (env : Envelope) (zone : Nat) (s : State) : Host.Outcome State Fault Refusal :=
  .next (s.take env .ab fun h => h.ask (performAbort zone))

/-- CL. -/
def execClearDone (env : Envelope) (zone : Nat) (s : State) : Host.Outcome State Fault Refusal :=
  .next (s.take env .cl fun h => h.ask (performClearDone zone))

/-- DS, minutes. -/
def execDelayedStartMinutes (env : Envelope) (minutes : Nat) (s : State) : Host.Outcome State Fault Refusal :=
  .next (s.take env .ds fun h => h.ask (performDelayedStartMinutes minutes))

/-- DS, CANCEL. -/
def execDelayedStartCancel (env : Envelope) (s : State) : Host.Outcome State Fault Refusal :=
  .next (s.take env .ds fun h => h.ask performDelayedStartCancel)

/-- DS, QUERY. -/
def execDelayedStartQuery (env : Envelope) (s : State) : Host.Outcome State Fault Refusal :=
  .next (s.take env .ds fun h => h.ask performDelayedStartQuery)

/-- ZR. -/
def execZoneRead (env : Envelope) (zone : Nat) (s : State) : Host.Outcome State Fault Refusal :=
  .next (s.take env .zr fun h => h.ask (performZoneRead zone))

/-- RR. -/
def execRunRecordRead (env : Envelope) (zone position : Nat) (s : State) : Host.Outcome State Fault Refusal :=
  .next (s.take env .rr fun h => h.ask (performRunRecordRead zone position))

end Sys2Proof.Machine
end

