-- ==== Sys2Proof/Machine/Catalogue.lean ====
section
/-! DEFINITION. The request catalogue (section 11.8): the owner that a taken frame's request is handed to. -/

namespace Sys2Proof.Machine

/-- The owner's part of a request that a frame carries. An event of the part is carried by no frame. -/
def performRequest : Instr → State → State × Answer
  | .identify _, s => s.ask performIdentify
  | .status _, s => performStatus s
  | .acknowledgeAlerts _ pairs, s => s.ask (performAcknowledge pairs)
  | .unlock _ code, s => performUnlock code s
  | .changeCode _ code, s => s.ask (performChangeCode code)
  | .rsReset _, s => s.ask performReset
  | .clearCauses _, s => performClearCauses s
  | .cwKiln _ fields, s => s.ask (performCwKiln fields)
  | .cwZone _ zone fields, s => s.ask (performCwZone zone fields)
  | .cwGroup _ together limit, s => s.ask (performCwGroup together limit)
  | .cwScan _ mode favoured spot, s => s.ask (performCwScan mode favoured spot)
  | .cwWindow _ window fields, s => s.ask (performCwWindow window fields)
  | .cwDefault _ settle samples, s => s.ask (performCwDefault settle samples)
  | .cwLine _ line fields, s => s.ask (performCwLine line fields)
  | .configurationRead _ item index, s => s.ask (performConfigurationRead item index)
  | .probeWrite _ entry fields, s => s.ask (performProbeWrite entry fields)
  | .probeRead _ entry, s => s.ask (performProbeRead entry)
  | .excludeProbe _ entry, s => s.ask (performExcludeProbe entry)
  | .reinstateProbe _ entry, s => s.ask (performReinstateProbe entry)
  | .spotRequest _ entry, s => s.ask (performSpotRequest entry)
  | .spotResult _, s => s.ask performSpotResult
  | .speciesWrite _ group k knots, s => s.ask (performSpeciesWrite group k knots)
  | .speciesRead _ group, s => s.ask (performSpeciesRead group)
  | .setCursor _ index, s => s.ask (performSetCursor index)
  | .writeRecord _ record, s => s.ask (performWriteRecord record)
  | .readRecord _, s => s.ask performReadRecord
  | .entryTableWrite _ zone entries, s => s.ask (performEntryTableWrite zone entries)
  | .entryTableRead _ zone, s => s.ask (performEntryTableRead zone)
  | .startZone _ zone, s => s.ask (performStartZone zone)
  | .hold _ target, s => s.ask (performHold target)
  | .resume _ zone, s => s.ask (performResume zone)
  | .skip _ zone, s => s.ask (performSkip zone)
  | .abort _ zone, s => s.ask (performAbort zone)
  | .reloadStep _ zone, s => s.ask (performReloadStep zone)
  | .clearDone _ zone, s => s.ask (performClearDone zone)
  | .recover _ zone, s => s.ask (performRecover zone)
  | .delayedStartMinutes _ minutes, s => s.ask (performDelayedStartMinutes minutes)
  | .delayedStartCancel _, s => s.ask performDelayedStartCancel
  | .delayedStartQuery _, s => s.ask performDelayedStartQuery
  | .override _ zone output value, s => s.ask (performOverride zone output value)
  | .releaseOverride _ zone output, s => s.ask (performReleaseOverride zone output)
  | .refreshOverrides _, s => s.ask performRefreshOverrides
  | .fieldEnable _, s => s.ask performFieldEnable
  | .fieldDisable _, s => s.ask performFieldDisable
  | .lineModify _ mask values, s => s.ask (performLineModify mask values)
  | .lineRead _, s => s.ask performLineRead
  | .zoneRead _ zone, s => s.ask (performZoneRead zone)
  | .runRecordRead _ zone position, s => s.ask (performRunRecordRead zone position)
  | .frameComplete _, s => (s, { status := .badForm })
  | .badLengthByte _, s => (s, { status := .badForm })
  | .interByteTimeout, s => (s, { status := .badForm })
  | .stopBitError, s => (s, { status := .badForm })
  | .lineBreak, s => (s, { status := .badForm })
  | .replyStart, s => (s, { status := .badForm })
  | .replyEnd, s => (s, { status := .badForm })
  | .powerOnReset, s => (s, { status := .badForm })
  | .pinReset, s => (s, { status := .badForm })
  | .commandedReset, s => (s, { status := .badForm })
  | .restart _ _ _, s => (s, { status := .badForm })
  | .storeWriteComplete, s => (s, { status := .badForm })
  | .passTimerExpiry _, s => (s, { status := .badForm })
  | .measurementCompletion _, s => (s, { status := .badForm })
  | .minuteTimerExpiry _, s => (s, { status := .badForm })
  | .startTimeoutExpiry _, s => (s, { status := .badForm })
  | .delayedStartExpiry, s => (s, { status := .badForm })
  | .groupStartTimeoutExpiry, s => (s, { status := .badForm })
  | .climateSampleComplete _ _ _, s => (s, { status := .badForm })
  | .rampMinuteExpiry _, s => (s, { status := .badForm })
  | .pulsePeriodStart _, s => (s, { status := .badForm })
  | .onTimeExpiry _ _, s => (s, { status := .badForm })
  | .dwellExpiry _, s => (s, { status := .badForm })
  | .proofDelayExpiry _, s => (s, { status := .badForm })
  | .overrideLapseExpiry, s => (s, { status := .badForm })
  | .pinChange _ _, s => (s, { status := .badForm })
  | .debounceTimerExpiry _, s => (s, { status := .badForm })
  | .byteArrival _, s => (s, { status := .badForm })
  | .powerLoss, s => (s, { status := .badForm })

/-- What a taken frame of a known kind asks, checked by R174 from check 2 on. -/
def State.answerPayload (s : State) (env : Envelope) (kind : RequestKind) (payload : List Byte) : State × Answer :=
  match parsePayload env kind payload with
  | .badForm => (s, { status := .badForm })
  | .undefinedValue k => s.perform k fun h => (h, { status := .badValue })
  | .request i => s.perform kind (performRequest i)

/-- What a taken frame asks, checked by R174 in its order. -/
def State.answerFrame (s : State) (env : Envelope) (letters : Byte × Byte) (payload : List Byte) : State × Answer :=
  match kindOf letters with
  | none => (s, { status := .badForm })
  | some kind => s.answerPayload env kind payload

/-- A good frame for this part completes (R171, checks 3 and 4). -/
def State.takeFrame (s : State) (env : Envelope) (letters : Byte × Byte) (payload : List Byte) : State :=
  s.complete fun h => State.note (h.answerFrame env letters payload) env letters

end Sys2Proof.Machine
end

