-- ==== Sys2Proof/Machine/Receiver.lean ====
section
/-! DEFINITION. Chapter 11, the receiver and the reply: bytes, discards, the judgement of a complete frame, the start and the
end of a reply, and the completion of a store write (R158, R168 to R173). -/

namespace Sys2Proof.Machine

/-! ### Frames -/

/-- The length byte n of the bytes collected so far, once it has arrived. -/
def lengthByte (bytes : List Byte) : Nat := (bytes.getD 2 0).toNat

/-- The byte sequence is a whole frame: n + 5 bytes (R170). -/
def frameWhole (bytes : List Byte) : Bool := decide (3 ≤ bytes.length) && bytes.length == lengthByte bytes + 5

/-- The carried CRC differs from the one computed over bytes 1 to 2 + n (R171, check 1). -/
def crcBad (bytes : List Byte) : Bool :=
  let n := lengthByte bytes
  crcBytes (crcOf ((bytes.drop 1).take (n + 2))) != (bytes.drop (n + 3)).take 2

/-- The frame is for this part: `true` for a broadcast; `none` for another station (R169). -/
def Straps.addressed (s : Straps) (station : Byte) : Option Bool :=
  if station = 0 then some true else if station.toNat = s.station then some false else none

/-- The receiver returns to HUNT. -/
def State.hunt (s : State) : State := s.withLink fun l => { l with receiver := .hunt }

/-- The partial or bad frame is discarded and the check-error counter is incremented (R170, R171). -/
def State.checkError (s : State) : State :=
  s.withLink fun l => { l with receiver := .hunt, checkErrors := countUp l.checkErrors }

/-- A complete frame is judged (R171). -/
def State.judgeFrame (s : State) (bytes : List Byte) : State :=
  if crcBad bytes then s.checkError
  else
    match s.plant.straps.addressed (bytes.getD 1 0) with
    | none => s.hunt
    | some broadcast =>
      s.takeFrame { broadcast := broadcast, tag := (bytes.getD 5 0).toNat } (bytes.getD 3 0, bytes.getD 4 0)
        ((bytes.drop 6).take (lengthByte bytes - 3))

/-- The receiver takes bytes: the part runs and TXEN is deasserted (R162, R168). -/
def State.listening (s : State) : Bool := s.mode == .running && !s.link.txen

/-- A byte of a frame: the third byte must be a length, and the last one completes the frame (R170). -/
def State.collect (s : State) (bytes : List Byte) : State :=
  if bytes.length = 3 ∧ (lengthByte bytes < 3 ∨ 250 < lengthByte bytes) then s.checkError
  else if frameWhole bytes then s.judgeFrame bytes
  else s.withLink fun l => { l with receiver := .frame bytes }

/-- A byte arrives at the receiver (R170). -/
def State.takeByte (s : State) (b : Byte) : State :=
  if s.listening then
    match s.link.receiver with
    | .hunt => if b = 0xC3 then s.withLink fun l => { l with receiver := .frame [b] } else s
    | .frame bytes => s.collect (bytes ++ [b])
  else s

/-- A discard that changes neither counter (R170). While TXEN is asserted the event is ignored and the partial frame is kept
until the reply ends and the receiver stands in HUNT (R168), the model's choice (log entry 41). -/
def State.discard (s : State) : State := if s.listening then s.hunt else s

/-- The bytes collected in FRAME. -/
def State.collected (s : State) : List Byte :=
  match s.link.receiver with
  | .hunt => []
  | .frame bytes => bytes

/-! ### Replies -/

/-- The unanswered request ends with its reply; the reset of an RS is due then (R162, R172; log entry 16). -/
def LinkState.settleRequest (l : LinkState) (u : Unanswered) : LinkState :=
  { l with unanswered := none, resetDue := l.resetDue || u.resets }

/-- A reply begins, or would have begun for a broadcast; a broadcast RS resets the part at that moment (R172, R173). -/
def State.startReply (s : State) : State :=
  match s.listening, s.link.unanswered with
  | true, some u =>
    if u.awaitsStore then s
    else if u.broadcast then
      if u.resets then s.takeReset .commanded else s.withLink fun l => { l with unanswered := none }
    else s.withLink fun l => { l with txen := true, sending := u.reply s.plant.straps }
  | _, _ => s

/-- The last byte of a reply ends: TXEN is deasserted and the receiver stands in HUNT (R168, R172). -/
def State.endReply (s : State) : State :=
  if s.mode = .running ∧ s.link.txen = true then
    s.withLink fun l =>
      let m : LinkState := { l with txen := false, sending := [], receiver := .hunt }
      match l.unanswered with
      | some u => m.settleRequest u
      | none => m
  else s

/-! ### Store writes -/

/-- The write of the request's host item has completed (R172, R173). -/
def LinkState.hostItemWritten (l : LinkState) : LinkState :=
  match l.unanswered with
  | none => l
  | some u =>
    if !u.awaitsStore then l
    else if u.broadcast then { l with unanswered := none }
    else { l with unanswered := some { u with awaitsStore := false } }

/-- The write in flight completes (R158, R172). -/
def State.completeWrite (s : State) : State :=
  match s.mode, s.plant.queue.inFlight with
  | .running, some (.host _) => { s with plant := s.plant.completeWrite, link := s.link.hostItemWritten }
  | .running, some (.checkpoint _ _) => { s with plant := s.plant.completeWrite }
  | _, _ => s

/-! ### The commands -/

/-- FRAME_COMPLETE: the byte that completes the frame being collected. -/
def execFrameComplete (crcLow : Byte) (s : State) : Host.Outcome State Fault Refusal :=
  .next (if frameWhole (s.collected ++ [crcLow]) then s.takeByte crcLow else s)

/-- BAD_LENGTH_BYTE: a third byte outside 3..250. -/
def execBadLengthByte (length : Byte) (s : State) : Host.Outcome State Fault Refusal :=
  .next
    (if s.collected.length = 2 ∧ (length.toNat < 3 ∨ 250 < length.toNat) then
      if s.listening then s.checkError else s
    else s)

/-- INTER_BYTE_TIMEOUT. -/
def execInterByteTimeout (s : State) : Host.Outcome State Fault Refusal := .next s.discard

/-- STOP_BIT_ERROR. -/
def execStopBitError (s : State) : Host.Outcome State Fault Refusal := .next s.discard

/-- BREAK. -/
def execLineBreak (s : State) : Host.Outcome State Fault Refusal := .next s.discard

/-- BYTE_ARRIVAL. -/
def execByteArrival (byte : Byte) (s : State) : Host.Outcome State Fault Refusal := .next (s.takeByte byte)

/-- REPLY_START. -/
def execReplyStart (s : State) : Host.Outcome State Fault Refusal := .next s.startReply

/-- REPLY_END. -/
def execReplyEnd (s : State) : Host.Outcome State Fault Refusal := .next s.endReply

/-- STORE_WRITE_COMPLETE. -/
def execStoreWriteComplete (s : State) : Host.Outcome State Fault Refusal := .next s.completeWrite

end Sys2Proof.Machine
end

