-- ==== Sys2Proof/Machine/ResetEvents.lean ====
section
/-! DEFINITION. The commands of the reset logic (R162 to R165, R183). -/

namespace Sys2Proof.Machine

/-- POWER_ON_RESET: the supply has come up, whatever stood before (R162). -/
def execPowerOnReset (s : State) : Host.Outcome State Fault Refusal := .next (s.takeReset .powerOn)

/-- PIN_RESET: taken while the part is not in reset (R162). -/
def execPinReset (s : State) : Host.Outcome State Fault Refusal :=
  .next (if s.mode = .running then s.takeReset .pin else s)

/-- COMMANDED_RESET: taken after an answered RS (R162). -/
def execCommandedReset (s : State) : Host.Outcome State Fault Refusal :=
  .next (if s.mode = .running ∧ s.link.resetDue = true then s.takeReset .commanded else s)

/-- RESTART: the end of a reset, with the straps as they stand (R163, R164). -/
def execRestart (sta : BitVec 5) (bd : BitVec 2) (mxs : BitVec 2) (s : State) : Host.Outcome State Fault Refusal :=
  .next (s.endReset { sta := sta, bd := bd, mxs := mxs })

/-- POWER_LOSS (R162). -/
def execPowerLoss (s : State) : Host.Outcome State Fault Refusal := .next s.loseSupply

end Sys2Proof.Machine
end

