-- ==== Sys2Proof/Machine/TimerEvents.lean ====
section
/-! DEFINITION. The expiries of the timers, the pass and measurement events, and the pin events (R13, R76, R84, R85, R100,
R108, R110, R112, R115, R120, R122, R123, R125, R126, R128, R137, R148). An expiry of a timer that does not run, like any
event that the part's state rules out, changes nothing (log entry 5). -/

namespace Sys2Proof.Machine

/-- An event that can happen only while a timer runs. -/
def Plant.whileRunning (p : Plant) (t : Timer) (q : Plant) : Plant := if t.isSome then q else p

/-! ### The minute timer (R76, R100, R110, R112) -/

/-- The checkpoint count advanced, with the periodic checkpoint at 30 (R100). -/
def Plant.countCheckpoint (p : Plant) (z : Zone) : Plant :=
  let q := p.context z fun c => { c with checkpointCount := c.checkpointCount + 1 }
  if 30 ≤ (q.ctx z).checkpointCount then q.queueCheckpoint z else q

/-- A waiting member detaches and advances alone (R112). -/
def Plant.detach (p : Plant) (z : Zone) : Plant :=
  let q := p.context z fun c => { c with detached := true, waiting := false }
  ((q.raise (.zone z .groupDetached)).advance z).judgeRelease

/-- A minute of a waiting member, after the clocks (R110, R112). -/
def Plant.waitMinute (p : Plant) (z : Zone) : Plant :=
  let q := p.context z fun c => { c with waitCount := bump 1441 c.waitCount }
  let limit := p.work.config.group.waitLimit
  if limit ≠ 0 ∧ limit < (q.ctx z).waitCount then q.detach z else q

/-- The sequencer's part of a minute expiry (R76). -/
def Plant.sequencerMinute (p : Plant) (z : Zone) : Plant :=
  match (p.ctx z).state with
  | .phase _ =>
    let q := (p.context z fun c =>
      { c with stepClock := bump 65535 c.stepClock, runClock := bump 65535 c.runClock }).countCheckpoint z
    if (q.ctx z).waiting then q.waitMinute z else q.evaluate z
  | .held => (p.context z fun c => { c with runClock := bump 65535 c.runClock }).countCheckpoint z
  | .safe => (p.context z fun c => { c with runClock := bump 65535 c.runClock }).countCheckpoint z
  | _ => p

/-- A minute expiry: the timer runs on, the sequencer's part, and then the Output Unit's (R76, R125). -/
def Plant.minuteExpiry (p : Plant) (z : Zone) : Plant :=
  ((p.context z fun c => { c with minuteTimer := some 60000 }).sequencerMinute z).fanMinute z

/-! ### Starts (R84, R85, R108) -/

/-- The start timeout of an ungrouped zone reaches 0 (R84). -/
def Plant.startTimeoutExpiry (p : Plant) (z : Zone) : Plant :=
  if (p.ctx z).state = .starting then p.timeoutStart z else p

/-- The group start timeout reaches 0 (R108); the members fail in the order A to D, the model's choice (log entry 32). -/
def Plant.groupTimeoutExpiry (p : Plant) : Plant := p.startingSet.foldl Plant.timeoutStart { p with groupTimeout := none }

/-- The delayed start timer reaches 0 (R85). -/
def Plant.delayedExpiry (p : Plant) : Plant :=
  ({ p with delayedStart := none } : Plant).startEvent .timer StartMask.timer

/-! ### Climate (R115, R120, R135, R136) -/

/-- The SENSOR and OVERTEMP causes as a sample leaves them (R135, R136). -/
def ZoneUnit.sampledCauses (u : ZoneUnit) (kiln : KilnConfig) (c : SafeCauses) : SafeCauses :=
  { c with
    sensor :=
      if u.sensorFault then true
      else if u.climate.db.status == .good && u.climate.wb.status == .good then false
      else c.sensor
    overtemp := c.overtemp || u.overtemp kiln }

/-- A climate sample complete (R114, R115). -/
def Plant.sampleComplete (p : Plant) (z : Zone) (db wb : Int) : Plant :=
  let q := p.climate z fun c => { c with sampleTimer := some 10000, db := c.db.sample db, wb := c.wb.sample wb }
  (q.changeCauses z ((q.unit z).sampledCauses p.kiln)).evaluateStart z

/-- A ramp minute expiry (R120). -/
def Plant.rampExpiry (p : Plant) (z : Zone) : Plant := p.reportRamp (p.climate z ClimateState.rampMinute) z

/-! ### Outputs (R122, R123, R125, R126, R128) -/

/-- A pulse period start (R122, R123). -/
def Plant.periodStart (p : Plant) (z : Zone) : Plant :=
  let period := (p.items z).pulsePeriod
  let times := (p.unit z).onTimes (p.items z) p.fieldEnabled
  p.output z fun o =>
    { o with
      pulseTimer := Timer.seconds period
      heat := .begin period times.1
      spray := .begin period times.2.1
      vent := .begin period times.2.2 }

/-- One of the three outputs. -/
def OutputState.timed (o : OutputState) : TimedOutput → AutoOutput
  | .heat => o.heat
  | .spray => o.spray
  | .vent => o.vent

/-- An output whose on-time has ended (R123). -/
def AutoOutput.finish (a : AutoOutput) : AutoOutput := { a with level := false, timer := none }

/-- An on-time expiry (R123). -/
def OutputState.endOnTime (o : OutputState) : TimedOutput → OutputState
  | .heat => { o with heat := o.heat.finish }
  | .spray => { o with spray := o.spray.finish }
  | .vent => { o with vent := o.vent.finish }

/-- A proof-delay expiry: the overdue mark, and FAN for a watched zone (R126, R137). -/
def Plant.proofExpiry (p : Plant) (z : Zone) : Plant :=
  let q := p.zone z fun u => { u with proofOverdue := true, output := { u.output with proofTimer := none } }
  q.changeCauses z fun c => { c with fan := true }

/-- The override lapse timer expires (R128). -/
def Plant.lapseExpiry (p : Plant) : Plant :=
  (({ p with lapse := none } : Plant).eachZone fun q z => q.overrides z fun _ => {}).raise (.device .overrideLapsed)

/-! ### The commands -/

/-- PASS_TIMER_EXPIRY. -/
def execPassTimerExpiry (zone : Zone) (s : State) : Host.Outcome State Fault Refusal :=
  .next (s.event fun p => p.whileRunning (p.unit zone).pass.timer (p.passExpiry zone))

/-- MEASUREMENT_COMPLETION. -/
def execMeasurementCompletion (samples : List Int) (s : State) : Host.Outcome State Fault Refusal :=
  .next (s.event fun p => p.completeMeasurement samples)

/-- MINUTE_TIMER_EXPIRY. -/
def execMinuteTimerExpiry (zone : Zone) (s : State) : Host.Outcome State Fault Refusal :=
  .next (s.event fun p => p.whileRunning (p.ctx zone).minuteTimer (p.minuteExpiry zone))

/-- START_TIMEOUT_EXPIRY. -/
def execStartTimeoutExpiry (zone : Zone) (s : State) : Host.Outcome State Fault Refusal :=
  .next (s.event fun p => p.whileRunning (p.ctx zone).startTimeout (p.startTimeoutExpiry zone))

/-- DELAYED_START_EXPIRY. -/
def execDelayedStartExpiry (s : State) : Host.Outcome State Fault Refusal :=
  .next (s.event fun p => p.whileRunning p.delayedStart p.delayedExpiry)

/-- GROUP_START_TIMEOUT_EXPIRY. -/
def execGroupStartTimeoutExpiry (s : State) : Host.Outcome State Fault Refusal :=
  .next (s.event fun p => p.whileRunning p.groupTimeout p.groupTimeoutExpiry)

/-- CLIMATE_SAMPLE_COMPLETE. -/
def execClimateSampleComplete (zone : Zone) (db wb : Int) (s : State) : Host.Outcome State Fault Refusal :=
  .next (s.event fun p => p.whileRunning (p.unit zone).climate.sampleTimer (p.sampleComplete zone db wb))

/-- RAMP_MINUTE_EXPIRY. -/
def execRampMinuteExpiry (zone : Zone) (s : State) : Host.Outcome State Fault Refusal :=
  .next (s.event fun p => p.whileRunning (p.unit zone).climate.rampTimer (p.rampExpiry zone))

/-- PULSE_PERIOD_START. -/
def execPulsePeriodStart (zone : Zone) (s : State) : Host.Outcome State Fault Refusal :=
  .next (s.event fun p => p.whileRunning (p.unit zone).output.pulseTimer (p.periodStart zone))

/-- ON_TIME_EXPIRY. -/
def execOnTimeExpiry (zone : Zone) (output : TimedOutput) (s : State) : Host.Outcome State Fault Refusal :=
  .next
    (s.event fun p =>
      p.whileRunning ((p.unit zone).output.timed output).timer (p.output zone fun o => o.endOnTime output))

/-- DWELL_EXPIRY. -/
def execDwellExpiry (zone : Zone) (s : State) : Host.Outcome State Fault Refusal :=
  .next (s.event fun p => p.whileRunning (p.unit zone).output.fan.dwellTimer (p.fan zone FanState.endDwell))

/-- PROOF_DELAY_EXPIRY. -/
def execProofDelayExpiry (zone : Zone) (s : State) : Host.Outcome State Fault Refusal :=
  .next (s.event fun p => p.whileRunning (p.unit zone).output.proofTimer (p.proofExpiry zone))

/-- OVERRIDE_LAPSE_EXPIRY. -/
def execOverrideLapseExpiry (s : State) : Host.Outcome State Fault Refusal :=
  .next (s.event fun p => p.whileRunning p.lapse p.lapseExpiry)

/-- The level applied from outside changes while the part is in reset or without supply: nothing but the level at the pin
follows (R151, R154). -/
def Plant.quietPinChange (p : Plant) (i : Fin 16) (high : Bool) : Plant :=
  p.line i fun l => { l with external := high, pin := high }

/-- PIN_CHANGE. -/
def execPinChange (line : Fin 16) (high : Bool) (s : State) : Host.Outcome State Fault Refusal :=
  .next
    (if s.mode = .running then s.event fun p => p.pinChange line high
    else { s with plant := s.plant.quietPinChange line high })

/-- DEBOUNCE_TIMER_EXPIRY. -/
def execDebounceTimerExpiry (line : Fin 16) (s : State) : Host.Outcome State Fault Refusal :=
  .next (s.event fun p => p.debounceExpiry line)

end Sys2Proof.Machine
end

