-- ==== Sys2Proof/Machine/Dispatch.lean ====
section
/-! DEFINITION. One arm per command: what each does to everything but the queue. -/

namespace Sys2Proof.Machine

/-- The effect of a command. -/
def exec (i : Instr) (s : State) : Host.Outcome State Fault Refusal :=
  match i with
  | .identify env => Sys2Proof.Machine.execIdentify env s
  | .status env => Sys2Proof.Machine.execStatus env s
  | .acknowledgeAlerts env pairs => Sys2Proof.Machine.execAcknowledgeAlerts env pairs s
  | .unlock env code => Sys2Proof.Machine.execUnlock env code s
  | .changeCode env code => Sys2Proof.Machine.execChangeCode env code s
  | .rsReset env => Sys2Proof.Machine.execRsReset env s
  | .clearCauses env => Sys2Proof.Machine.execClearCauses env s
  | .cwKiln env fields => Sys2Proof.Machine.execCwKiln env fields s
  | .cwZone env zone fields => Sys2Proof.Machine.execCwZone env zone fields s
  | .cwGroup env together limit => Sys2Proof.Machine.execCwGroup env together limit s
  | .cwScan env mode favoured spotEnabled => Sys2Proof.Machine.execCwScan env mode favoured spotEnabled s
  | .cwWindow env window fields => Sys2Proof.Machine.execCwWindow env window fields s
  | .cwDefault env settle samples => Sys2Proof.Machine.execCwDefault env settle samples s
  | .cwLine env line fields => Sys2Proof.Machine.execCwLine env line fields s
  | .configurationRead env item index => Sys2Proof.Machine.execConfigurationRead env item index s
  | .probeWrite env entry fields => Sys2Proof.Machine.execProbeWrite env entry fields s
  | .probeRead env entry => Sys2Proof.Machine.execProbeRead env entry s
  | .excludeProbe env entry => Sys2Proof.Machine.execExcludeProbe env entry s
  | .reinstateProbe env entry => Sys2Proof.Machine.execReinstateProbe env entry s
  | .spotRequest env entry => Sys2Proof.Machine.execSpotRequest env entry s
  | .spotResult env => Sys2Proof.Machine.execSpotResult env s
  | .speciesWrite env group k knots => Sys2Proof.Machine.execSpeciesWrite env group k knots s
  | .speciesRead env group => Sys2Proof.Machine.execSpeciesRead env group s
  | .setCursor env index => Sys2Proof.Machine.execSetCursor env index s
  | .writeRecord env record => Sys2Proof.Machine.execWriteRecord env record s
  | .readRecord env => Sys2Proof.Machine.execReadRecord env s
  | .entryTableWrite env zone entries => Sys2Proof.Machine.execEntryTableWrite env zone entries s
  | .entryTableRead env zone => Sys2Proof.Machine.execEntryTableRead env zone s
  | .startZone env zone => Sys2Proof.Machine.execStartZone env zone s
  | .hold env target => Sys2Proof.Machine.execHold env target s
  | .resume env zone => Sys2Proof.Machine.execResume env zone s
  | .skip env zone => Sys2Proof.Machine.execSkip env zone s
  | .abort env zone => Sys2Proof.Machine.execAbort env zone s
  | .reloadStep env zone => Sys2Proof.Machine.execReloadStep env zone s
  | .clearDone env zone => Sys2Proof.Machine.execClearDone env zone s
  | .recover env zone => Sys2Proof.Machine.execRecover env zone s
  | .delayedStartMinutes env minutes => Sys2Proof.Machine.execDelayedStartMinutes env minutes s
  | .delayedStartCancel env => Sys2Proof.Machine.execDelayedStartCancel env s
  | .delayedStartQuery env => Sys2Proof.Machine.execDelayedStartQuery env s
  | .override env zone output value => Sys2Proof.Machine.execOverride env zone output value s
  | .releaseOverride env zone output => Sys2Proof.Machine.execReleaseOverride env zone output s
  | .refreshOverrides env => Sys2Proof.Machine.execRefreshOverrides env s
  | .fieldEnable env => Sys2Proof.Machine.execFieldEnable env s
  | .fieldDisable env => Sys2Proof.Machine.execFieldDisable env s
  | .lineModify env mask values => Sys2Proof.Machine.execLineModify env mask values s
  | .lineRead env => Sys2Proof.Machine.execLineRead env s
  | .zoneRead env zone => Sys2Proof.Machine.execZoneRead env zone s
  | .runRecordRead env zone position => Sys2Proof.Machine.execRunRecordRead env zone position s
  | .frameComplete crcLow => Sys2Proof.Machine.execFrameComplete crcLow s
  | .badLengthByte length => Sys2Proof.Machine.execBadLengthByte length s
  | .interByteTimeout => Sys2Proof.Machine.execInterByteTimeout s
  | .stopBitError => Sys2Proof.Machine.execStopBitError s
  | .lineBreak => Sys2Proof.Machine.execLineBreak s
  | .replyStart => Sys2Proof.Machine.execReplyStart s
  | .replyEnd => Sys2Proof.Machine.execReplyEnd s
  | .powerOnReset => Sys2Proof.Machine.execPowerOnReset s
  | .pinReset => Sys2Proof.Machine.execPinReset s
  | .commandedReset => Sys2Proof.Machine.execCommandedReset s
  | .restart sta bd mxs => Sys2Proof.Machine.execRestart sta bd mxs s
  | .storeWriteComplete => Sys2Proof.Machine.execStoreWriteComplete s
  | .passTimerExpiry zone => Sys2Proof.Machine.execPassTimerExpiry zone s
  | .measurementCompletion samples => Sys2Proof.Machine.execMeasurementCompletion samples s
  | .minuteTimerExpiry zone => Sys2Proof.Machine.execMinuteTimerExpiry zone s
  | .startTimeoutExpiry zone => Sys2Proof.Machine.execStartTimeoutExpiry zone s
  | .delayedStartExpiry => Sys2Proof.Machine.execDelayedStartExpiry s
  | .groupStartTimeoutExpiry => Sys2Proof.Machine.execGroupStartTimeoutExpiry s
  | .climateSampleComplete zone db wb => Sys2Proof.Machine.execClimateSampleComplete zone db wb s
  | .rampMinuteExpiry zone => Sys2Proof.Machine.execRampMinuteExpiry zone s
  | .pulsePeriodStart zone => Sys2Proof.Machine.execPulsePeriodStart zone s
  | .onTimeExpiry zone output => Sys2Proof.Machine.execOnTimeExpiry zone output s
  | .dwellExpiry zone => Sys2Proof.Machine.execDwellExpiry zone s
  | .proofDelayExpiry zone => Sys2Proof.Machine.execProofDelayExpiry zone s
  | .overrideLapseExpiry => Sys2Proof.Machine.execOverrideLapseExpiry s
  | .pinChange line high => Sys2Proof.Machine.execPinChange line high s
  | .debounceTimerExpiry line => Sys2Proof.Machine.execDebounceTimerExpiry line s
  | .byteArrival byte => Sys2Proof.Machine.execByteArrival byte s
  | .powerLoss => Sys2Proof.Machine.execPowerLoss s

end Sys2Proof.Machine
end

