-- ==== Sys2Proof/Machine/Ticks.lean ====
section
/-! DEFINITION. The passing of one millisecond, which a step on an empty queue stands for (log entry 4): every running timer
has one millisecond less to run. No timer expires by itself; its expiry is a command. -/

namespace Sys2Proof.Machine

/-- One output. -/
def AutoOutput.tick (a : AutoOutput) : AutoOutput := { a with timer := a.timer.tick }

/-- The timers of one zone. -/
def ZoneUnit.tick (u : ZoneUnit) : ZoneUnit :=
  { u with
    ctx := { u.ctx with startTimeout := u.ctx.startTimeout.tick, minuteTimer := u.ctx.minuteTimer.tick }
    climate := { u.climate with sampleTimer := u.climate.sampleTimer.tick, rampTimer := u.climate.rampTimer.tick }
    output :=
      { u.output with
        pulseTimer := u.output.pulseTimer.tick
        heat := u.output.heat.tick
        spray := u.output.spray.tick
        vent := u.output.vent.tick
        fan := { u.output.fan with dwellTimer := u.output.fan.dwellTimer.tick }
        proofTimer := u.output.proofTimer.tick }
    pass := { u.pass with timer := u.pass.timer.tick } }

/-- Every timer of the part. -/
def Plant.tick (p : Plant) : Plant :=
  { p with
    zones := PerZone.tabulate fun z => (p.unit z).tick
    groupTimeout := p.groupTimeout.tick
    lines := p.lines.map fun l => { l with timer := l.timer.tick }
    delayedStart := p.delayedStart.tick
    lapse := p.lapse.tick }

/-- One millisecond with no command: a running part's timers run, and nothing else changes. -/
def State.idle (s : State) : State :=
  match s.mode with
  | .running => { s with plant := s.plant.tick }
  | _ => s

end Sys2Proof.Machine
end

