-- ==== Sys2Proof/Safety.lean ====
section
/-! DEFINITION. The terms in which the claims are stated: a request that the link can take, the state that a request leaves,
the levels that follow from the rest, what each shared operation of the sequencers leaves, the laws that the manual states of every
state, and the layouts of the replies. -/

namespace Sys2Proof

open Sys2Proof.Machine

/-- A request of the catalogue with its kind: the kinds of section 11.8 that a frame can carry. -/
def Instr.kind (i : Instr) : Option RequestKind := (encodeRequest i).map Prod.fst

/-- Check 1 of R176 for KILN. -/
def RawKiln.Defined (r : RawKiln) : Prop := r.safeVent ≤ 1 ∧ r.safeFan ≤ 1

/-- Every numeric field of KILN is in its range (R176). -/
def RawKiln.InRange (r : RawKiln) : Prop :=
  400 ≤ r.maximumDb ∧ r.maximumDb ≤ 1200 ∧ 10 ≤ r.overtempMargin ∧ r.overtempMargin ≤ 100 ∧ 1 ≤ r.startTimeout ∧
    r.startTimeout ≤ 120 ∧ 1 ≤ r.overrideTimeout ∧ r.overrideTimeout ≤ 60

/-- KILN as written: each numeric field at the nearest bound of its range (R176). -/
def RawKiln.item (r : RawKiln) : KilnConfig where
  maximumDb := max 400 (min 1200 r.maximumDb)
  overtempMargin := max 10 (min 100 r.overtempMargin)
  safeVent := if r.safeVent = 0 then .open else .closed
  safeFan := if r.safeFan = 0 then .run else .stop
  startTimeout := max 1 (min 120 r.startTimeout)
  overrideTimeout := max 1 (min 60 r.overrideTimeout)

/-- Check 1 of R176 for ZONE. -/
def RawZone.Defined (r : RawZone) : Prop :=
  r.startMask ≤ 7 ∧ r.preconditionMask ≤ 7 ∧ r.grouped ≤ 1 ∧ r.autoResume ≤ 1

/-- Every numeric field of ZONE is in its range (R176). -/
def RawZone.InRange (r : RawZone) : Prop :=
  1 ≤ r.passInterval ∧ r.passInterval ≤ 60 ∧ 1 ≤ r.k ∧ r.k ≤ 8 ∧ 1 ≤ r.nmin ∧ r.nmin ≤ 16 ∧ r.jumpLimit ≤ 100 ∧
    1 ≤ r.failCount ∧ r.failCount ≤ 15 ∧ 5 ≤ r.pbHeat ∧ r.pbHeat ≤ 200 ∧ 5 ≤ r.pbHum ∧ r.pbHum ≤ 200 ∧
    10 ≤ r.pulsePeriod ∧ r.pulsePeriod ≤ 600 ∧ 5 ≤ r.proofDelay ∧ r.proofDelay ≤ 120 ∧ 10 ≤ r.dwell ∧ r.dwell ≤ 300 ∧
    5 ≤ r.warmupTolerance ∧ r.warmupTolerance ≤ 100 ∧ 1 ≤ r.equalizeSpread ∧ r.equalizeSpread ≤ 100

/-- ZONE as written: each numeric field at the nearest bound of its range (R176). -/
def RawZone.item (r : RawZone) : ZoneConfig where
  passInterval := max 1 (min 60 r.passInterval)
  k := max 1 (min 8 r.k)
  nmin := max 1 (min 16 r.nmin)
  jumpLimit := min 100 r.jumpLimit
  failCount := max 1 (min 15 r.failCount)
  pbHeat := max 5 (min 200 r.pbHeat)
  pbHum := max 5 (min 200 r.pbHum)
  pulsePeriod := max 10 (min 600 r.pulsePeriod)
  proofDelay := max 5 (min 120 r.proofDelay)
  dwell := max 10 (min 300 r.dwell)
  warmupTolerance := max 5 (min 100 r.warmupTolerance)
  equalizeSpread := max 1 (min 100 r.equalizeSpread)
  startMask := ⟨r.startMask.testBit 0, r.startMask.testBit 1, r.startMask.testBit 2⟩
  preconditions := ⟨r.preconditionMask.testBit 0, r.preconditionMask.testBit 1, r.preconditionMask.testBit 2⟩
  grouped := decide (r.grouped = 0)
  autoResume := decide (r.autoResume = 0)

/-- Check 1 of R176 for WINDOW. -/
def RawWindow.Defined (r : RawWindow) : Prop := r.samples ∈ [1, 2, 4, 8, 16] ∧ r.switchSettle ≤ 1

/-- Every numeric field of WINDOW is in its range (R8, R176). -/
def RawWindow.InRange (r : RawWindow) : Prop :=
  r.bank ≤ 3 ∧ r.first ≤ 63 ∧ r.count ≤ 64 ∧ 10 ≤ r.settle ∧ r.settle ≤ 2000

/-- WINDOW as written: each numeric field at the nearest bound of its range (R8, R176). -/
def RawWindow.item (r : RawWindow) : WindowConfig where
  bank := min 3 r.bank
  first := min 63 r.first
  count := min 64 r.count
  settle := max 10 (min 2000 r.settle)
  samples := r.samples
  switchSettle := decide (r.switchSettle = 0)

/-- Check 1 of R176 for LINE. -/
def RawLine.Defined (r : RawLine) : Prop :=
  r.role ≤ 7 ∧ r.zone ≤ 3 ∧ r.polarity ≤ 1 ∧ r.safeLevel ≤ 1 ∧ r.keep ≤ 1

/-- The fields of a record that SW offers are consistent (R58). -/
structure RawStep.Consistent (r : RawStep) : Prop where
  last : r.last ≤ 1
  db : 0 ≤ r.db ∧ r.db ≤ 1200
  depression : 0 ≤ r.depression ∧ r.depression ≤ 400 ∧ r.depression ≤ r.db
  rampRate : r.rampRate ≤ 200
  mcThreshold : r.mcThreshold ≤ 999
  sensor : r.sensor ≤ 1
  times : r.minTime ≤ 60000 ∧ 1 ≤ r.maxTime ∧ r.maxTime ≤ 60000 ∧ r.minTime ≤ r.maxTime
  fanInterval : r.fanInterval = 0 ∨ (30 ≤ r.fanInterval ∧ r.fanInterval ≤ 720)

/-- The record that consistent fields name (R56, R175). -/
def RawStep.record (r : RawStep) : StepRecord where
  last := decide (r.last = 0)
  db := r.db
  depression := r.depression
  rampRate := r.rampRate
  mcThreshold := r.mcThreshold
  sensor := if r.sensor = 0 then .used else .notUsed
  minTime := r.minTime
  maxTime := r.maxTime
  fanInterval := r.fanInterval

end Sys2Proof

namespace Sys2Proof.Machine

/-! ### Requests -/

/-- A request of a kind can be taken and passes the gate check: the part runs and sends no reply, no request is unanswered,
and the gate is OPEN where the kind requires it (R168, R171, R174, R178). -/
structure State.Ready (s : State) (kind : RequestKind) : Prop where
  running : s.mode = .running
  silent : s.link.txen = false
  free : s.link.unanswered = none
  gate : kind.gated = true → s.link.gate = .open

/-- The state a taken request leaves, given the plant it leaves and its answer: the receiver stands in HUNT, the request is
unanswered with that answer, and every other item of the link is as before (R171, R172). -/
def State.answered (s : State) (kind : RequestKind) (env : Envelope) (p : Plant) (a : Answer) : State :=
  { s with
    plant := p
    link :=
      { s.link with
        receiver := .hunt
        unanswered :=
          some
            { kind := kind.letters
              tag := env.tag
              broadcast := env.broadcast
              answer := a
              awaitsStore := a.stores
              resets := decide (kind = .rs) && a.status == .ok } } }

/-- The frame that carries a request to a station (R170). -/
def requestFrame (station : Nat) (kind : RequestKind) (tag : Nat) (payload : List Byte) : List Byte :=
  frameBytes station kind.letters tag payload

/-! ### Levels -/

/-- Every level stands as it follows from the rest of the plant: ATTN# (R179), the zone pins (R129), and the line pins with
the debounced levels of output lines (R147, R151). -/
structure Plant.Levelled (p : Plant) : Prop where
  attn : p.attn = !p.alerts.isEmpty
  pins : ∀ z, (p.unit z).output.pins = (p.unit z).levels p.fieldEnabled p.kiln.safeVent
  lines : ∀ i, p.lines.get i = p.settledLine i

/-- SPRAY and VENT are not both overridden ON, and their automatic levels are not both on (R122, R127, R129). -/
def OutputState.Exclusive (o : OutputState) : Prop :=
  ¬(o.overrides.spray = .on ∧ o.overrides.vent = .on) ∧ ¬(o.spray.level = true ∧ o.vent.level = true)

/-- The levels follow while the part runs; in reset and without supply every zone pin is off (R129, R132). -/
structure State.PinsLawful (s : State) : Prop where
  running : s.mode = .running → s.plant.Levelled
  quiet : s.mode ≠ .running → ∀ z, (s.plant.unit z).output.pins = {}
  exclusive : ∀ z, (s.plant.unit z).output.Exclusive

/-! ### The alert set -/

/-- The pairs stand in rising rank, so that no pair stands twice (R179, R180). -/
def AlertsSorted (xs : List Alert) : Prop := xs.Pairwise fun a b => a.rank < b.rank

/-- No pair stands twice, and ATTN# is asserted exactly while the set is not empty (R179). -/
structure Plant.AlertsLawful (p : Plant) : Prop where
  sorted : AlertsSorted p.alerts
  attn : p.attn = !p.alerts.isEmpty

/-! ### The store write queue -/

/-- The waiting host items of a list. -/
def hostItems : List StoreItem → List SectionName
  | [] => []
  | .host s :: xs => s :: hostItems xs
  | .checkpoint _ _ :: xs => hostItems xs

/-- The zones of the waiting checkpoint items of a list. -/
def checkpointZones : List StoreItem → List Zone
  | [] => []
  | .host _ :: xs => checkpointZones xs
  | .checkpoint z _ :: xs => z :: checkpointZones xs

/-- The form of the queue that does not depend on the link: at most one checkpoint item waits for each zone, and nothing
waits while nothing is in flight (R158). -/
structure StoreQueue.Formed (q : StoreQueue) : Prop where
  zones : (checkpointZones q.waiting).Nodup
  busy : q.inFlight = none → q.waiting = []

/-- The host items in flight and waiting. -/
def StoreQueue.hosts (q : StoreQueue) : Nat :=
  (match q.inFlight with | some (.host _) => 1 | _ => 0) + (hostItems q.waiting).length

/-- A request waits for the write of its host item (R159, R172). -/
def LinkState.awaiting (l : LinkState) : Bool :=
  match l.unanswered with
  | some u => u.awaitsStore
  | none => false

/-- The queue has its form, it holds a host item exactly while a request waits for its write, and then no other; a request
whose reply is being sent waits for no write (R158, R159, R172). In reset and without supply no request is unanswered and the
queue is empty (R162, R183). -/
structure State.QueueLawful (s : State) : Prop where
  formed : s.plant.queue.Formed
  hosts : s.plant.queue.hosts = if s.link.awaiting then 1 else 0
  sending : s.link.txen = true → s.link.awaiting = false
  quiet : s.mode ≠ .running → s.link.unanswered = none ∧ s.plant.queue = { inFlight := none, waiting := [] }

/-! ### Zones -/

/-- The underlying phase is present in HELD and SAFE and absent in every other state (R73), and the safe-cause set is not
empty exactly in SAFE (R133). -/
structure ZoneUnit.Consistent (u : ZoneUnit) : Prop where
  underlying : u.ctx.underlying.isSome = (u.ctx.state == .held || u.ctx.state == .safe)
  causes : u.causes.any = (u.ctx.state == .safe)

/-- The bounds that the counts of a zone keep (R97, R104, R125). -/
structure ZoneUnit.Bounded (u : ZoneUnit) : Prop where
  runRecord : u.ctx.runRecord.length ≤ 48
  dropped : u.ctx.dropped ≤ 65535
  waitCount : u.ctx.waitCount ≤ 1441
  reversals : u.output.fan.reversalCount ≤ 720

/-- Every zone keeps its bounds, and the link counters theirs (R171). -/
structure State.Bounded (s : State) : Prop where
  zones : ∀ z, (s.plant.unit z).Bounded
  checkErrors : s.link.checkErrors ≤ 65535
  overruns : s.link.overruns ≤ 65535

/-! ### Probes and curves -/

/-- The nine knots of a species group do not increase and k and the knots are in range (R31). -/
def SpeciesGroup.Legal (g : SpeciesGroup) : Prop := g.k ≤ 500 ∧ knotsOk g.knots.cells = true

/-- A value lies between the last and the first knot of a curve, both included (R33). -/
def SpeciesGroup.Spans (g : SpeciesGroup) (mc : Int) : Prop := (g.knot 8 : Int) ≤ mc ∧ mc ≤ g.knot 0

/-- The MC values that a record holds lie within a curve (R33). -/
structure ProbeRecord.Within (r : ProbeRecord) (g : SpeciesGroup) : Prop where
  accepted : ∀ v, r.lastAccepted = some v → g.Spans v
  candidate : ∀ v, r.candidate = some v → g.Spans v

/-- The store's species section, where it passes its check, and a species write in flight hold legal curves (R31, R32). -/
structure Plant.StoredCurvesLegal (p : Plant) : Prop where
  stored : ∀ t, p.store.species = some t → ∀ i, (t.get i).Legal
  flight : ∀ t, p.queue.inFlight = some (.host (.species t)) → ∀ i, (t.get i).Legal

/-- R33 with what it rests on: every curve of the working copy is legal, the record of every MOISTURE entry holds MC values
within its entry's curve, and a pass measurement in flight that is not stale measures the kind its entry has (R12, R33). -/
structure Plant.CurvesLawful (p : Plant) : Prop where
  stores : p.StoredCurvesLegal
  legal : ∀ i, (p.work.species.get i).Legal
  within :
    ∀ i r, (p.work.probes.get i).kind = .moisture → p.records.get i = some r →
      r.Within (p.work.species.get (p.work.probes.get i).group)
  flight :
    ∀ m z, p.frontEnd.inFlight = some m → m.requester = .zone z → m.stale = false →
      m.kind = (p.work.probes.get m.entry).kind

/-- No two assigned entries of a table hold the same bank and position (R2). -/
def AddressesDistinct (t : Table 64 ProbeConfig) : Prop :=
  ∀ i j, i ≠ j → (t.get i).zone.isSome = true → (t.get j).zone.isSome = true →
    ¬((t.get i).bank = (t.get j).bank ∧ (t.get i).position = (t.get j).position)

/-- The working probe table, the stored one and one in flight hold no address twice (R2). -/
structure Plant.AddressesLawful (p : Plant) : Prop where
  work : AddressesDistinct p.work.probes
  stored : ∀ t, p.store.probeTable = some t → AddressesDistinct t
  flight : ∀ t, p.queue.inFlight = some (.host (.probeTable t)) → AddressesDistinct t

/-! ### Frames -/

/-- What every operation of the sequencers leaves as it was: the straps, the working copies, the store, the cursor, the
runtime records, the front end, the arbiter, the spot slot, the multiplexer pins, the delayed start and lapse timers, and the
field gate. -/
structure Plant.SameBeyondZones (p q : Plant) : Prop where
  straps : q.straps = p.straps
  work : q.work = p.work
  store : q.store = p.store
  cursor : q.cursor = p.cursor
  records : q.records = p.records
  frontEnd : q.frontEnd = p.frontEnd
  arbiter : q.arbiter = p.arbiter
  spot : q.spot = p.spot
  mux : q.mux = p.mux
  delayedStart : q.delayedStart = p.delayedStart
  lapse : q.lapse = p.lapse
  fieldEnabled : q.fieldEnabled = p.fieldEnabled

/-- The plant with one zone's unit replaced. -/
def Plant.put (p : Plant) (z : Zone) (u : ZoneUnit) : Plant := { p with zones := p.zones.set z u }

/-- The state that an event of the part leaves, given what the event itself makes of the plant: the proof timers, the pins and
ATTN# follow (R126, R129, R151, R179). -/
def State.moved (s : State) (p : Plant) : State := { s with plant := settle s.plant p }

/-! ### Records -/

/-- A zone context whose run record has gained an entry at its end; of 48 entries the oldest goes, and the dropped count says
so (R97). -/
def ZoneContext.gain (c : ZoneContext) (e : RunEntry) : ZoneContext :=
  { c with
    runRecord := (if c.runRecord.length < 48 then c.runRecord else c.runRecord.drop 1) ++ [e]
    dropped := if c.runRecord.length < 48 then c.dropped else min 65535 (c.dropped + 1) }

/-- The entry of an event of a zone as it stands (R97). -/
def ZoneUnit.event (u : ZoneUnit) (k : RunKind) (reason : Option ExitReason) : RunEntry where
  kind := k
  minute := u.ctx.runClock
  step := u.ctx.stepIndex
  reason := reason
  cmc := u.aggregate.cmc
  dmc := u.aggregate.dmc

/-! ### Climate and fans -/

/-- Some internal target differs from its internal setpoint (R120). -/
def ClimateState.Away (c : ClimateState) : Prop :=
  ∃ d w, c.dbSetpoint = some d ∧ c.wbSetpoint = some w ∧ (c.dbTarget ≠ 60 * d ∨ c.wbTarget ≠ 60 * w)

/-- The setpoints and the ramp rate that a step gives under a maximum DB (R116). -/
def ClimateState.steered (c : ClimateState) (r : StepRecord) (maximum : Int) : ClimateState :=
  { c with
    dbSetpoint := some (min r.db maximum)
    wbSetpoint := some (min r.db maximum - r.depression)
    rampRate := r.rampRate }

/-- A climate state without setpoints and without a ramp (R116, R121). -/
def ClimateState.ended (c : ClimateState) : ClimateState :=
  { c with dbSetpoint := none, wbSetpoint := none, rampRate := 0, rampTimer := none }

/-- A ramp start toward present setpoints `d` and `w` (R119): at rate 0 the targets are there at once, otherwise the ramp minute
timer runs where a target is away. -/
def ClimateState.started (c : ClimateState) (d w : Int) : ClimateState :=
  if c.rampRate = 0 then { c with dbTarget := 60 * d, wbTarget := 60 * w, rampTimer := none }
  else { c with rampTimer := if c.dbTarget ≠ 60 * d ∨ c.wbTarget ≠ 60 * w then some 60000 else none }

/-- The targets at the measured start values (R119): a reading counts while its sensor is GOOD. -/
def ClimateState.measured (c : ClimateState) (maximum : Int) : ClimateState :=
  let db :=
    match c.db.status, c.db.value with
    | .good, some x => max 0 (min (60 * maximum) (60 * x))
    | _, _ => max 0 (min (60 * maximum) c.dbTarget)
  let wb :=
    match c.wb.status, c.wb.value with
    | .good, some x => max 0 (min db (60 * x))
    | _, _ => max 0 (min db c.wbTarget)
  { c with dbTarget := db, wbTarget := wb }

/-- The three time-proportioned outputs off for the rest of the period (R123). -/
def OutputState.off (o : OutputState) : OutputState :=
  { o with
    heat := { level := false, onTime := 0, timer := none }
    spray := { level := false, onTime := 0, timer := none }
    vent := { level := false, onTime := 0, timer := none } }

/-- The fan running in its direction with the reversal count at 0 and no dwell (R124). -/
def FanState.running (f : FanState) : FanState :=
  { f with
    machine := if f.direction = .forward then .runFwd else .runRev
    reversalCount := 0
    dwellTimer := none }

/-- The outputs with a reversal interval set, of a zone in a phase state or HELD whose dwell lasts `dwell` seconds: where a
running fan has already reached the interval, the reversal falls due at once, a dwell begins, and the time-proportioned outputs
are off for the rest of the period (R123, R125). -/
def OutputState.turned (o : OutputState) (interval dwell : Nat) : OutputState :=
  if (o.fan.machine = .runFwd ∨ o.fan.machine = .runRev) ∧ interval ≠ 0 ∧ interval ≤ o.fan.reversalCount then
    { o.off with
      fan :=
        { o.fan with
          interval := interval
          machine := if o.fan.machine = .runFwd then .dwellToRev else .dwellToFwd
          dwellTimer := some (dwell * 1000) } }
  else { o with fan := { o.fan with interval := interval } }

/-- The fan at rest: STOPPED, no dwell, and no reversal interval (R124, R125). -/
def FanState.rested (f : FanState) : FanState := { f with machine := .stopped, dwellTimer := none, interval := 0 }

/-! ### Lines -/

/-- A line's configuration as an offered record spells it, with a debounce code that need not be in range (R146). -/
def LineConfig.raw (c : LineConfig) (debounce : Nat) : RawLine where
  role :=
    match c.role with
    | .none => 0
    | .door => 1
    | .fanProof => 2
    | .startButton => 3
    | .holdIn => 4
    | .alarmOut => 5
    | .generalIn => 6
    | .generalOut => 7
  zone :=
    match c.zone with
    | .a => 0
    | .b => 1
    | .c => 2
    | .d => 3
  polarity :=
    match c.polarity with
    | .activeHigh => 0
    | .activeLow => 1
  debounce := debounce
  safeLevel := if c.safeActive then 0 else 1
  keep := if c.keep then 0 else 1

/-! ### Zones -/

/-- A zone that has entered IDLE (R75, R121, R123, R124, R143); its last start failure, its clocks and its run record stay. -/
def ZoneUnit.idled (u : ZoneUnit) : ZoneUnit :=
  { u with
    ctx :=
      { u.ctx with
        state := .idle
        underlying := none
        holds := { host := false, line := false }
        holdPending := false
        stepIndex := none
        activeCopy := none
        eligible := none
        waiting := false
        waitCount := 0
        startTimeout := none
        ready := false
        checkpointCount := 0
        resumeFrom := none }
    climate := u.climate.ended
    output := { u.output.off with fan := u.output.fan.rested }
    causes := { door := false, sensor := false, fan := false, overtemp := false } }

/-- A zone that has entered HELD from phase `ph` (R91, R121). -/
def ZoneUnit.heldOver (u : ZoneUnit) (ph : Phase) : ZoneUnit :=
  { u with
    ctx :=
      { u.ctx.gain (u.event .held none) with
        state := .held
        underlying := some ph
        holdPending := false
        eligible := none
        waiting := false
        waitCount := 0
        checkpointCount := 0 }
    climate := { u.climate with rampTimer := none } }

/-- A zone that has taken step entry at record `i` of phase `ph` with content `x`, from the targets as they stand, under a
maximum DB and with its dwell in seconds (R83, R116, R119, R125). -/
def ZoneUnit.stepped (u : ZoneUnit) (ph : Phase) (i : Fin 128) (x : StepRecord) (maximum : Int) (dwell : Nat) : ZoneUnit :=
  { u with
    ctx :=
      { u.ctx with
        state := .phase ph
        underlying := none
        stepIndex := some i
        activeCopy := some x
        stepClock := 0
        eligible := none
        waiting := false
        waitCount := 0
        checkpointCount := 0 }
    climate := (u.climate.steered x maximum).started (min x.db maximum) (min x.db maximum - x.depression)
    output := u.output.turned x.fanInterval dwell }

/-- A zone that has entered SAFE with a cause set (R95, R121, R123, R124, R139). -/
def ZoneUnit.secured (u : ZoneUnit) (causes : SafeCauses) (setting : SafeFan) : ZoneUnit :=
  { u with
    ctx :=
      { u.ctx.gain (u.event .safeEntered none) with
        state := .safe
        underlying := u.ctx.currentPhase
        holdPending := false
        eligible := none
        waiting := false
        waitCount := 0
        checkpointCount := 0 }
    climate := { u.climate with rampTimer := none }
    output :=
      { u.output.off with
        fan :=
          if setting = .stop then { u.output.fan with machine := .stopped, dwellTimer := none }
          else if u.output.fan.machine = .runFwd ∨ u.output.fan.machine = .runRev then u.output.fan
          else u.output.fan.running }
    causes := causes }

/-- A zone that has left SAFE into HELD with an empty cause set; `db` and `wb` are its measured values where they are usable
(R96, R119, R121, R124, R140). -/
def ZoneUnit.released (u : ZoneUnit) (maximum : Int) (holdIn : Bool) : ZoneUnit :=
  { u with
    ctx :=
      { u.ctx.gain (u.event .safeLeft none) with
        state := .held
        holds := { host := true, line := holdIn }
        checkpointCount := 0 }
    climate := u.climate.measured maximum
    output :=
      { u.output with
        fan := if u.output.fan.machine = .stopped then u.output.fan.running else u.output.fan }
    causes := { door := false, sensor := false, fan := false, overtemp := false } }

/-- A zone that has returned from HELD to phase `ph`, with a ramp started toward its setpoints `d` and `w` (R92, R121). -/
def ZoneUnit.returned (u : ZoneUnit) (ph : Phase) (d w : Int) : ZoneUnit :=
  { u with
    ctx :=
      { u.ctx.gain (u.event .resumed none) with
        state := .phase ph
        underlying := none
        checkpointCount := 0 }
    climate := u.climate.started d w }

/-- A zone that has left STARTING for record `i` of its first phase `ph` with content `x`, from measured values, under a
maximum DB and with its dwell in seconds (R82, R83, R119, R125). -/
def ZoneUnit.entered (u : ZoneUnit) (ph : Phase) (i : Fin 128) (x : StepRecord) (maximum : Int) (dwell : Nat) : ZoneUnit :=
  { u with
    ctx :=
      { u.ctx.gain
          { kind := .started, minute := u.ctx.runClock, step := some i, reason := none, cmc := u.aggregate.cmc,
            dmc := u.aggregate.dmc } with
        state := .phase ph
        underlying := none
        stepIndex := some i
        activeCopy := some x
        stepClock := 0
        eligible := none
        waiting := false
        waitCount := 0
        startTimeout := none
        ready := false
        minuteTimer := some 60000
        checkpointCount := 0 }
    climate :=
      ((u.climate.measured maximum).steered x maximum).started (min x.db maximum) (min x.db maximum - x.depression)
    output := u.output.turned x.fanInterval dwell }

/-! ### Measurements -/

/-- The window takes in the address of an entry (R9). -/
def Plant.Covers (p : Plant) (w : Fin 4) (i : Fin 64) : Prop :=
  let x := p.work.config.windows.get w
  let c := p.work.probes.get i
  x.count ≠ 0 ∧ x.bank = c.bank.val ∧ x.first ≤ c.position.val ∧ c.position.val + 1 ≤ x.first + x.count

/-- The measurement `m` of entry `i` that begins for a requester after one with profile `previous`, with the multiplexer pins it
sets: the profile is that of the lowest window that takes in the address, and the duration follows from it (R6, R9, R10). -/
structure Plant.Begins (p : Plant) (who : Requester) (i : Fin 64) (previous : Option WindowId) (m : Measurement)
    (mux : BitVec 8) : Prop where
  requester : m.requester = who
  entry : m.entry = i
  kind : m.kind = (p.work.probes.get i).kind
  bank : m.bank = (p.work.probes.get i).bank
  position : m.position = (p.work.probes.get i).position
  stale : m.stale = false
  windowed :
    ∀ w, p.Covers w i → (∀ v : Fin 4, v.val < w.val → ¬p.Covers v i) →
      let x := p.work.config.windows.get w
      m.window = .window w ∧ m.samples = x.samples ∧
        m.duration =
          x.settle + x.samples * 20 + if x.switchSettle = true ∧ previous ≠ some (.window w) then 200 else 0
  otherwise :
    (∀ w, ¬p.Covers w i) →
      m.window = .default ∧ m.samples = p.work.config.default.samples ∧
        m.duration = p.work.config.default.settle + p.work.config.default.samples * 20
  pins :
    p.straps.addressExists m.bank m.position = true →
      mux.toNat = m.position.val + 2 ^ (p.straps.addressLines + m.bank.val)

/-! ### Conditions of a start -/

/-- Every condition of R81 is satisfied: DOOR, FAN and PROBES where the zone's mask checks them, and CLIMATE. -/
def Plant.Meets (p : Plant) (z : Zone) : Prop :=
  let items := p.work.config.zones.get z
  let climate := (p.unit z).climate
  (items.preconditions.door = true → p.doorOpen = false) ∧ (items.preconditions.fan = true → p.proof z = true) ∧
    (items.preconditions.probes = true → items.nmin ≤ (p.unit z).aggregate.count) ∧ climate.db.status = .good ∧
    climate.wb.status = .good ∧ ∃ x, climate.db.value = some x ∧ x ≤ p.kiln.maximumDb + p.kiln.overtempMargin

/-- The first phase of a zone whose entry is not NONE is `ph`, with entry record `i` of content `x` (R82). -/
def Plant.FirstEntry (p : Plant) (z : Zone) (ph : Phase) (i : Fin 128) (x : StepRecord) : Prop :=
  (∀ m : Phase, m.code < ph.code → (p.work.entries.get z).get m = none) ∧ (p.work.entries.get z).get ph = some i ∧
    p.work.records.get i = some x

/-! ### One zone after another -/

/-- The zones of the part in their order (R175). -/
def everyZone : List Zone := [.a, .b, .c, .d]

/-- What an event leaves that treats the zones of a list one after another: `treats z p q` says what treating `z` makes of `p`.
The order in which the zones of one event are treated is the model's choice (log entry 32). -/
def Plant.Chain (treats : Zone → Plant → Plant → Prop) : List Zone → Plant → Plant → Prop
  | [], p, q => q = p
  | z :: zs, p, q => ∃ r, treats z p r ∧ Plant.Chain treats zs r q

/-- What an operation on zone `z` leaves as it was: everything but its unit, the alerts, the store write queue and the lines. -/
structure Plant.Beside (p q : Plant) (z : Zone) : Prop where
  same : p.SameBeyondZones q
  group : q.groupTimeout = p.groupTimeout
  others : ∀ y, y ≠ z → q.unit y = p.unit y

/-! ### Advance and the lockstep set -/

/-- A member in the lockstep set (R110). -/
def Plant.InStep (p : Plant) (z : Zone) : Prop :=
  (p.work.config.zones.get z).grouped = true ∧ (p.ctx z).detached = false ∧
    ((p.ctx z).state = .phase .drying ∨
      (((p.ctx z).state = .held ∨ (p.ctx z).state = .safe) ∧ (p.ctx z).underlying = some .drying))

/-- Record `j` of phase `next` follows record `i` of phase `ph`, whose step is `y`, in a zone's walks (R59, R88). -/
def Plant.Follows (p : Plant) (z : Zone) (ph : Phase) (i : Fin 128) (y : StepRecord) (next : Phase) (j : Fin 128) : Prop :=
  (y.last = false ∧ next = ph ∧ j.val = i.val + 1) ∨
    (y.last = true ∧ ph.code < next.code ∧ (p.work.entries.get z).get next = some j ∧
      ∀ m : Phase, ph.code < m.code → m.code < next.code → (p.work.entries.get z).get m = none)

/-- No phase after `ph` has an entry (R88). -/
def Plant.LastPhase (p : Plant) (z : Zone) (ph : Phase) : Prop :=
  ∀ m : Phase, ph.code < m.code → (p.work.entries.get z).get m = none

/-- A zone that has entered DONE (R89, R121, R123, R124, R143). -/
def ZoneUnit.finished (u : ZoneUnit) : ZoneUnit :=
  { u with
    ctx :=
      { u.ctx.gain (u.event .done none) with
        state := .done
        underlying := none
        activeCopy := none
        eligible := none
        waiting := false
        waitCount := 0
        checkpointCount := 0 }
    climate := u.climate.ended
    output := { u.output.off with fan := u.output.fan.rested }
    causes := { door := false, sensor := false, fan := false, overtemp := false } }

/-- Zone `z` of `p` has advanced with an exit reason in `q` (R83, R88, R89). -/
structure Plant.Advances (p q : Plant) (z : Zone) (reason : ExitReason) : Prop where
  beside : p.Beside q z
  lines : q.lines = p.lines
  /-- Where a record follows: STEP_LEFT with the reason, FORCED_ADVANCE at the maximum time, and step entry at that record, with
  its alert and checkpoint. -/
  enters :
    ∀ (ph : Phase) (i : Fin 128) (y : StepRecord) (next : Phase) (j : Fin 128) (x : StepRecord),
      (p.ctx z).state = .phase ph → (p.ctx z).stepIndex = some i → (p.ctx z).activeCopy = some y →
      p.Follows z ph i y next j → p.work.records.get j = some x →
        let u := p.unit z
        let left : ZoneUnit := { u with ctx := u.ctx.gain (u.event .stepLeft (some reason)) }
        let v := left.stepped next j x p.kiln.maximumDb (p.work.config.zones.get z).dwell
        let alerted :=
          ((p.raiseIf (decide (reason = .maxTime)) (.zone z .forcedAdvance)).raiseIf
              (decide (p.kiln.maximumDb < x.db)) (.zone z .targetClamped)).raise
            (.zone z (if next = ph then .stepAdvanced else .phaseChanged))
        q = (alerted.put z v).enqueue (.checkpoint z v.checkpoint)
  /-- At the last record of the last phase: STEP_LEFT, FORCED_ADVANCE at the maximum time, and DONE. -/
  finishes :
    ∀ (ph : Phase) (i : Fin 128) (y : StepRecord),
      (p.ctx z).state = .phase ph → (p.ctx z).stepIndex = some i → (p.ctx z).activeCopy = some y → y.last = true →
      p.LastPhase z ph →
        let u := p.unit z
        let v :=
          ({ u with ctx := u.ctx.gain (u.event .stepLeft (some reason)) } : ZoneUnit).finished
        q =
          (((p.raiseIf (decide (reason = .maxTime)) (.zone z .forcedAdvance)).raise (.zone z .runDone)).put z v).enqueue
            (.checkpoint z v.checkpoint)

/-- What the judgement of the release leaves (R111): where every member of a lockstep set that is not empty waits, each advances
with its own kept reason, one after another; otherwise nothing changes. -/
structure Plant.Released (p q : Plant) : Prop where
  stays : ((∀ y, ¬p.InStep y) ∨ ∃ y, p.InStep y ∧ (p.ctx y).waiting = false) → q = p
  releases :
    (∃ y, p.InStep y) → (∀ y, p.InStep y → (p.ctx y).waiting = true) →
      Plant.Chain
        (fun y r r' =>
          (¬p.InStep y → r' = r) ∧
            (p.InStep y → r.Beside r' y ∧ ∀ reason, (p.ctx y).eligible = some reason → r.Advances r' y reason))
        everyZone p q

/-! ### Evaluations -/

/-- What the evaluation of the eligibility of zone `z` leaves (R86 to R89, R110), up to the judgement of the release. -/
structure Plant.StepJudged (p q : Plant) (z : Zone) : Prop where
  /-- Outside a phase state, hold-pending, eligible already, or not found eligible, the zone stays as it is. -/
  stays :
    (∀ ph x, (p.ctx z).state = .phase ph → (p.ctx z).activeCopy = some x →
      (p.ctx z).holdPending = true ∨ (p.ctx z).eligible.isSome = true ∨
        (p.unit z).judgeStep (p.work.config.zones.get z) ph x = none) → q = p
  /-- A zone found eligible advances with its reason, but for a member of the lockstep set in DRYING. -/
  advances :
    ∀ (ph : Phase) (y : StepRecord) (reason : ExitReason),
      (p.ctx z).state = .phase ph → (p.ctx z).activeCopy = some y → (p.ctx z).holdPending = false →
      (p.ctx z).eligible = none → (p.unit z).judgeStep (p.work.config.zones.get z) ph y = some reason →
      ¬p.InStep z → p.Advances q z reason
  /-- Such a member waits with its reason. -/
  waits :
    ∀ (ph : Phase) (y : StepRecord) (reason : ExitReason),
      (p.ctx z).state = .phase ph → (p.ctx z).activeCopy = some y → (p.ctx z).holdPending = false →
      (p.ctx z).eligible = none → (p.unit z).judgeStep (p.work.config.zones.get z) ph y = some reason →
      p.InStep z →
        q =
          p.put z
            { p.unit z with
              ctx :=
                { p.ctx z with
                  eligible := some reason
                  waiting := true
                  waitCount := if (p.ctx z).waiting then (p.ctx z).waitCount else 0 } }

/-- What the evaluation of zone `z` leaves, the release judged (R86 to R89, R110, R111). -/
def Plant.Evaluated (p q : Plant) (z : Zone) : Prop := ∃ r, p.StepJudged r z ∧ r.Released q

/-! ### Holds -/

/-- What a cause that joins the hold-cause set of zone `z` leaves, with the set `holds` that it makes (R90, R91). -/
structure Plant.HoldGained (p q : Plant) (z : Zone) (holds : HoldCauses) : Prop where
  /-- Outside the phase states and HELD nothing changes. -/
  rests : (p.ctx z).state ≠ .held → (p.ctx z).state.phase? = none → q = p
  /-- In HELD, and in a phase state whose set was not empty, the set alone changes. -/
  joins :
    (p.ctx z).state = .held ∨ ((p.ctx z).state.inPhase = true ∧ (p.ctx z).holds.any = true) →
      q = p.put z { p.unit z with ctx := { p.ctx z with holds := holds } }
  /-- From an empty set, while its ramp is in flight, the zone is hold-pending. -/
  pends :
    (p.ctx z).state.inPhase = true → (p.ctx z).holds.any = false → (p.unit z).climate.Away →
      q =
        p.put z
          { p.unit z with
            ctx :=
              { p.ctx z with
                holds := holds, holdPending := true, eligible := none, waiting := false, waitCount := 0 } }
  /-- From an empty set, with no ramp in flight, the zone enters HELD and queues its checkpoint. -/
  holds :
    ∀ ph, (p.ctx z).state = .phase ph → (p.ctx z).holds.any = false → ¬(p.unit z).climate.Away →
      let v := ({ p.unit z with ctx := { p.ctx z with holds := holds } } : ZoneUnit).heldOver ph
      q = (p.put z v).enqueue (.checkpoint z v.checkpoint)

/-- What a cause that leaves the hold-cause set of zone `z` leaves, with the set `holds` that remains (R90, R92), up to the
judgement of the release. -/
structure Plant.HoldLeft (p q : Plant) (z : Zone) (holds : HoldCauses) : Prop where
  /-- Outside the phase states and HELD nothing changes. -/
  rests : (p.ctx z).state ≠ .held → (p.ctx z).state.phase? = none → q = p
  /-- While a cause remains, and in a phase state without hold-pending, the set alone changes. -/
  stays :
    ((p.ctx z).state = .held ∧ holds.any = true) ∨
        ((p.ctx z).state.inPhase = true ∧ (holds.any = true ∨ (p.ctx z).holdPending = false)) →
      q = p.put z { p.unit z with ctx := { p.ctx z with holds := holds } }
  /-- A zone in HELD whose set empties returns to its phase, with a ramp from its targets as they stand toward its setpoints,
  queues its checkpoint, and is evaluated. -/
  returns :
    ∀ ph d w, (p.ctx z).state = .held → holds.any = false → (p.ctx z).underlying = some ph →
      (p.unit z).climate.dbSetpoint = some d → (p.unit z).climate.wbSetpoint = some w →
        let v := ({ p.unit z with ctx := { p.ctx z with holds := holds } } : ZoneUnit).returned ph d w
        ((p.put z v).enqueue (.checkpoint z v.checkpoint)).StepJudged q z
  /-- A hold-pending zone whose set empties is hold-pending no longer, and is evaluated. -/
  clears :
    (p.ctx z).state.inPhase = true → holds.any = false → (p.ctx z).holdPending = true →
      (p.put z { p.unit z with ctx := { p.ctx z with holds := holds, holdPending := false } }).StepJudged q z

/-! ### SAFE -/

/-- The latch of every ALARM_OUT line set ACTIVE (R153). -/
def Plant.alarmed (p : Plant) : Plant :=
  { p with
    lines :=
      Table.tabulate 16 fun i =>
        if (p.work.config.lines.get i).role = .alarmOut then { p.lines.get i with latch := true } else p.lines.get i }

/-- Zone `z` of `p` has entered SAFE with a cause set in `q` (R95, R139, R153). -/
def Plant.Secured (p q : Plant) (z : Zone) (causes : SafeCauses) : Prop :=
  let w := (p.unit z).secured causes p.kiln.safeFan
  q = ((p.alarmed.raise (.zone z .safeEntered)).put z w).enqueue (.checkpoint z w.checkpoint)

/-- A zone that stays in SAFE while its cause set becomes `causes`: HOST joins its hold-cause set where a cause has left (R142;
that it joins at that event is the model's reading, log entry 31). -/
def ZoneUnit.stillSafe (u : ZoneUnit) (causes : SafeCauses) : ZoneUnit :=
  let lost :=
    (u.causes.door && !causes.door) || (u.causes.sensor && !causes.sensor) || (u.causes.fan && !causes.fan) ||
      (u.causes.overtemp && !causes.overtemp)
  { u with
    ctx := { u.ctx with holds := { host := u.ctx.holds.host || lost, line := u.ctx.holds.line } }
    causes := causes }

/-- What a change of the safe-cause set of zone `z` to `causes` leaves (R133, R139, R140, R142). -/
structure Plant.Caused (p q : Plant) (z : Zone) (causes : SafeCauses) : Prop where
  /-- A zone that is not watched keeps its set. -/
  rests : (p.ctx z).state.watched = false → q = p
  /-- A running zone enters SAFE where the set is not empty. -/
  enters : (p.ctx z).state = .held ∨ (p.ctx z).state.inPhase = true → causes.any = true → p.Secured q z causes
  /-- Otherwise it stays where it is. -/
  stays :
    (p.ctx z).state = .held ∨ (p.ctx z).state.inPhase = true → causes.any = false →
      q = p.put z { p.unit z with causes := causes }
  /-- A zone in SAFE whose set is not empty stays there. -/
  remains : (p.ctx z).state = .safe → causes.any = true → q = p.put z ((p.unit z).stillSafe causes)
  /-- A zone in SAFE whose set empties leaves it for HELD, with HOST in its hold-cause set. -/
  leaves :
    (p.ctx z).state = .safe → causes.any = false →
      let w := (p.unit z).released p.kiln.maximumDb p.holdIn
      q = (p.put z w).enqueue (.checkpoint z w.checkpoint)

/-- The causes whose conditions stand for zone `z` (R134 to R137). -/
structure Plant.Stand (p : Plant) (z : Zone) (causes : SafeCauses) : Prop where
  door : causes.door = true ↔ p.doorOpen = true
  sensor : causes.sensor = true ↔ (p.unit z).climate.db.status = .faulty ∨ (p.unit z).climate.wb.status = .faulty
  fan : causes.fan = true ↔ (p.unit z).proofOverdue = true ∧ p.shouldRun z = true
  overtemp :
    causes.overtemp = true ↔
      (p.unit z).climate.db.status = .good ∧
        ∃ x, (p.unit z).climate.db.value = some x ∧ p.kiln.maximumDb + p.kiln.overtempMargin < x

/-! ### Starts -/

/-- Zone `z` of `p`, in STARTING, has entered its first phase in `q` (R82, R83, R90, R91, R138). -/
structure Plant.FirstPhase (p q : Plant) (z : Zone) : Prop where
  beside : p.Beside q z
  lines : ∀ i, q.lines.get i = p.lines.get i ∨ q.lines.get i = { p.lines.get i with latch := true }
  /-- It is watched, stands at the entry record of its first phase or over it in HELD or SAFE, with its minute timer started
  afresh, PHASE_CHANGED, and a STARTED entry that names the record. -/
  stands :
    ∀ ph i x, (p.ctx z).state = .starting → p.FirstEntry z ph i x →
      ((q.ctx z).state = .phase ph ∨
        (((q.ctx z).state = .held ∨ (q.ctx z).state = .safe) ∧ (q.ctx z).underlying = some ph)) ∧
      (q.ctx z).stepIndex = some i ∧ (q.ctx z).activeCopy = some x ∧ (q.ctx z).stepClock = 0 ∧
      (q.ctx z).minuteTimer = some 60000 ∧ .zone z .phaseChanged ∈ q.alerts ∧
      ∃ e ∈ (q.ctx z).runRecord, e.kind = .started ∧ e.step = some i ∧ e.minute = (q.ctx z).runClock
  /-- Step entry with its alerts and its checkpoint; then, where a hold line is active, LINE joins its hold-cause set; and then,
  where an interlock condition stands, it enters SAFE with the causes that stand. -/
  enters :
    ∀ ph i x, (p.ctx z).state = .starting → p.FirstEntry z ph i x → (p.unit z).causes.any = false →
        let v := (p.unit z).entered ph i x p.kiln.maximumDb (p.work.config.zones.get z).dwell
        let r :=
          (((p.raiseIf (decide (p.kiln.maximumDb < x.db)) (.zone z .targetClamped)).raise
              (.zone z .phaseChanged)).put z v).enqueue (.checkpoint z v.checkpoint)
        ∃ t : Plant,
          (p.holdIn = false → t = r) ∧
          (p.holdIn = true → r.HoldGained t z { host := (p.ctx z).holds.host, line := true }) ∧
          ∀ causes, t.Stand z causes → (causes.any = false → q = t) ∧ (causes.any = true → t.Secured q z causes)

/-- A member that waits in STARTING (R104). -/
def Plant.Standing (p : Plant) (z : Zone) : Prop :=
  (p.work.config.zones.get z).grouped = true ∧ (p.ctx z).state = .starting

/-- What the judgement of the group leaves (R107). -/
structure Plant.GroupJudged (p q : Plant) : Prop where
  /-- With no member in STARTING the group start timeout stops. -/
  stops : (∀ y, ¬p.Standing y) → q = { p with groupTimeout := none }
  /-- While a member in STARTING is not ready, nothing changes. -/
  waits : (∃ y, p.Standing y ∧ (p.ctx y).ready = false) → q = p
  /-- Where all are ready, the timeout stops and they enter their first phases, one after another. -/
  enters :
    (∃ y, p.Standing y) → (∀ y, p.Standing y → (p.ctx y).ready = true) →
      Plant.Chain (fun y r r' => (¬p.Standing y → r' = r) ∧ (p.Standing y → r.FirstPhase r' y)) everyZone
        { p with groupTimeout := none } q

/-- What the evaluation of zone `z`, in STARTING, leaves (R81, R82, R83, R107, R138). -/
structure Plant.StartJudged (p q : Plant) (z : Zone) : Prop where
  /-- A zone that is no member, whose conditions are not all satisfied, stays in STARTING. -/
  waits :
    (p.work.config.zones.get z).grouped = false → ¬p.Meets z →
      q = p.put z { p.unit z with ctx := { p.ctx z with ready := false } }
  /-- A zone that is no member, whose conditions are satisfied, enters its first phase. -/
  enters :
    (p.work.config.zones.get z).grouped = false → p.Meets z →
      (p.put z { p.unit z with ctx := { p.ctx z with ready := true } }).FirstPhase q z
  /-- A member is ready or not by its conditions, and the group is judged. -/
  joins :
    ∀ ready : Bool, (p.work.config.zones.get z).grouped = true → (ready = true ↔ p.Meets z) →
      (p.put z { p.unit z with ctx := { p.ctx z with ready := ready } }).GroupJudged q

/-- What the evaluation of every zone in STARTING leaves, one after another (R81). -/
def Plant.StartsJudged (p q : Plant) : Prop :=
  Plant.Chain
    (fun z r r' => ((r.ctx z).state ≠ .starting → r' = r) ∧ ((r.ctx z).state = .starting → r.StartJudged r' z)) everyZone p q

/-- A zone that a start has put into STARTING, before its conditions are evaluated (R79, R124); its start timeout is another
matter. -/
def ZoneUnit.begun (u : ZoneUnit) (source : StartSource) : ZoneUnit :=
  { u with
    ctx :=
      { u.ctx with
        state := .starting
        underlying := none
        holds := { host := false, line := false }
        holdPending := false
        stepIndex := none
        activeCopy := none
        stepClock := 0
        runClock := 0
        eligible := none
        waiting := false
        waitCount := 0
        detached := false
        startSource := source
        ready := false
        checkpointCount := 0
        lastFailure := none
        runRecord := []
        dropped := 0 }
    output := { u.output with fan := u.output.fan.running } }

/-- A zone whose start has failed (R80). -/
def ZoneUnit.failed (u : ZoneUnit) (source : StartSource) (cause : FailureCause) (finding : Option Finding) : ZoneUnit :=
  { u with
    ctx :=
      { u.ctx with lastFailure := some { source := source, cause := cause, finding := finding, unmet := none } } }

/-- What a group start leaves (R105, R106): every IDLE member is taken. With the field disabled, and where its validation has a
finding, a member fails its start; the others enter STARTING, on the group start timeout that runs already or starts now, and
the group is judged once, after the conditions of each have been evaluated. -/
def Plant.GroupStarted (p q : Plant) (source : StartSource) (initiating : Zone → Prop) : Prop :=
  let taken (z : Zone) := (p.work.config.zones.get z).grouped = true ∧ (p.ctx z).state = .idle
  let started (z : Zone) := taken z ∧ p.fieldEnabled = true ∧ p.validate z = none
  ∃ r : Plant,
    p.SameBeyondZones r ∧ r.lines = p.lines ∧ r.queue = p.queue ∧
    (∀ a, a ∈ r.alerts ↔ a ∈ p.alerts ∨ ∃ z, a = .zone z .startFailed ∧ taken z ∧ ¬started z) ∧
    ((∃ z, started z) → (∀ z, ¬p.Standing z) → r.groupTimeout = some (p.kiln.startTimeout * 60000)) ∧
    ((∀ z, ¬started z) ∨ (∃ z, p.Standing z) → r.groupTimeout = p.groupTimeout) ∧
    (∀ z src, ((initiating z ∧ src = source) ∨ (¬initiating z ∧ src = .group)) →
      (¬taken z → r.unit z = p.unit z) ∧
      (taken z → p.fieldEnabled = false → r.unit z = (p.unit z).failed src .fieldDisabled none) ∧
      (∀ f, taken z → p.fieldEnabled = true → p.validate z = some f →
        r.unit z = (p.unit z).failed src .badSchedule (some f)) ∧
      ∀ ready : Bool, (ready = true ↔ p.Meets z) → started z →
        r.unit z =
          { (p.unit z).begun src with ctx := { ((p.unit z).begun src).ctx with ready := ready } }) ∧
    ((∀ z, ¬started z) → q = r) ∧ ((∃ z, started z) → r.GroupJudged q)

/-- What a start event of a line or of the delayed start timer leaves (R78, R80, R85, R105): each IDLE zone that is no member
and has the source in its start mask fails its start or is started, and then, where an IDLE member has it in its mask, one
group start is taken, with those members as its initiating ones. -/
def Plant.EventStarted (p q : Plant) (source : StartSource) (inMask : StartMask → Bool) : Prop :=
  let hit (z : Zone) := (p.ctx z).state = .idle ∧ inMask (p.work.config.zones.get z).startMask = true
  let grouped (z : Zone) := (p.work.config.zones.get z).grouped = true
  ∃ t : Plant,
    Plant.Chain
      (fun z r r' =>
        let u := p.unit z
        (¬(hit z ∧ ¬grouped z) → r' = r) ∧
        (hit z → ¬grouped z →
          (p.fieldEnabled = false →
            r' = (r.put z (u.failed source .fieldDisabled none)).raise (.zone z .startFailed)) ∧
          (∀ f, p.fieldEnabled = true → p.validate z = some f →
            r' = (r.put z (u.failed source .badSchedule (some f))).raise (.zone z .startFailed)) ∧
          (p.fieldEnabled = true → p.validate z = none →
            let v := u.begun source
            (r.put z
                { v with ctx := { v.ctx with startTimeout := some (p.kiln.startTimeout * 60000) } }).StartJudged r' z)))
      everyZone p t ∧
    ((∀ z, hit z → ¬grouped z) → q = t) ∧ ((∃ z, hit z ∧ grouped z) → t.GroupStarted q source hit)

/-! ### Passes and grants -/

/-- Entry `i` takes part in the pass of zone `z` (R14, R15). -/
def Plant.Scans (p : Plant) (z : Zone) (i : Fin 64) : Prop :=
  (p.work.probes.get i).zone = some z ∧ ∃ r, p.records.get i = some r ∧ r.state ∉ [.excluded, .failed, .unreachable]

/-- What the end of the pass of zone `z` leaves: the aggregate of the records as they stand, PROBE_SHORTAGE where it is newly
blind outside IDLE, and the zone evaluated on it (R15, R49, R53, R81, R86, R107, R111). -/
def Plant.PassEnded (p q : Plant) (z : Zone) : Prop :=
  let u := p.unit z
  let new := p.formAggregate z
  let completed :=
    (p.put z { u with pass := { u.pass with progress := none }, aggregate := new }).raiseIf
      ((!u.aggregate.blind && new.blind) && decide (u.ctx.state ≠ .idle)) (.zone z .probeShortage)
  (u.ctx.state = .starting → completed.StartJudged q z) ∧ (u.ctx.state ≠ .starting → completed.Evaluated q z)

/-- What the start of a pass of zone `z` leaves (R14). -/
structure Plant.PassStarted (p q : Plant) (z : Zone) : Prop where
  /-- The snapshot holds the entries that take part, in rising order, and the pass stands at the first. -/
  scans :
    ∀ snapshot : List (Fin 64), snapshot ≠ [] → snapshot.Pairwise (fun i j => i.val < j.val) →
      (∀ i, i ∈ snapshot ↔ p.Scans z i) →
        q = p.put z { p.unit z with pass := { (p.unit z).pass with progress := some ⟨snapshot, snapshot⟩ } }
  /-- With no such entry the pass ends at its start. -/
  ends : (∀ i, ¬p.Scans z i) → p.PassEnded q z

/-- What the completion of the pass of zone `z` leaves: its end, and the start of a due pass (R13, R15). -/
def Plant.PassCompleted (p q : Plant) (z : Zone) : Prop :=
  ∃ r : Plant, p.PassEnded r z ∧
    let w := r.unit z
    (w.pass.due = false → q = r) ∧
      (w.pass.due = true → (r.put z { w with pass := { w.pass with due := false } }).PassStarted q z)

/-- What the arbiter leaves at the end of an event that may free the front end or add a requester (R15 to R18). The requester and
the arbiter's state after the grant are those of `Plant.choose`, which ArbiterRule states. That a zone passed over whose due pass
starts in the event is among the requesters chosen from next is the model's choice (log entry 37). -/
inductive Plant.Granted : Plant → Plant → Prop where
  /-- With a measurement in flight there is no grant. -/
  | busy {p : Plant} : p.frontEnd.inFlight.isSome = true → Granted p p
  /-- With no requester the front end stays free. -/
  | free {p : Plant} : p.frontEnd.inFlight = none → p.choose = none → Granted p p
  /-- The spot slot is granted: its entry's measurement begins. -/
  | spot {p : Plant} {arbiter : Arbiter} {i : Fin 64} {m : Measurement} {mux : BitVec 8} :
      p.frontEnd.inFlight = none → p.choose = some (.spot, arbiter) → p.spot = .waiting i →
      p.Begins .spot i p.frontEnd.previous m mux →
        Granted p
          { p with
            arbiter := arbiter
            spot := .measuring i
            mux := mux
            frontEnd := { inFlight := some m, previous := some m.window } }
  /-- A zone is granted: the measurement of the next entry of its pass that takes part begins. -/
  | zone {p : Plant} {z : Zone} {arbiter : Arbiter} {snapshot skipped : List (Fin 64)} {i : Fin 64} {more : List (Fin 64)}
      {m : Measurement} {mux : BitVec 8} :
      p.frontEnd.inFlight = none → p.choose = some (.zone z, arbiter) →
      (p.unit z).pass.progress = some ⟨snapshot, skipped ++ i :: more⟩ → (∀ j ∈ skipped, ¬p.Scans z j) → p.Scans z i →
      p.Begins (.zone z) i p.frontEnd.previous m mux →
        Granted p
          { p.put z { p.unit z with pass := { (p.unit z).pass with progress := some ⟨snapshot, i :: more⟩ } } with
            arbiter := arbiter
            mux := mux
            frontEnd := { inFlight := some m, previous := some m.window } }
  /-- A zone whose pass has no such entry left is passed over: its pass completes, and the arbiter chooses again. -/
  | passed {p r q : Plant} {z : Zone} {arbiter : Arbiter} {g : PassProgress} :
      p.frontEnd.inFlight = none → p.choose = some (.zone z, arbiter) → (p.unit z).pass.progress = some g →
      (∀ j ∈ g.rest, ¬p.Scans z j) → p.PassCompleted r z → Granted r q → Granted p q

/-! ### Fans -/

/-- What a minute of the fan of zone `z` leaves (R125): in the phase states and HELD a running fan counts toward its reversal,
and where the reversal is due a dwell begins, with the time-proportioned outputs off. -/
structure Plant.FanMinute (p q : Plant) (z : Zone) : Prop where
  rests :
    ((p.ctx z).state ≠ .held ∧ (p.ctx z).state.inPhase = false) ∨
        ((p.unit z).output.fan.machine ≠ .runFwd ∧ (p.unit z).output.fan.machine ≠ .runRev) →
      q = p
  turns :
    (p.ctx z).state = .held ∨ (p.ctx z).state.inPhase = true →
    (p.unit z).output.fan.machine = .runFwd ∨ (p.unit z).output.fan.machine = .runRev →
      let u := p.unit z
      let fan := u.output.fan
      let counted : FanState := { fan with reversalCount := min 720 (fan.reversalCount + 1) }
      let due := fan.interval ≠ 0 ∧ fan.interval ≤ min 720 (fan.reversalCount + 1)
      (¬due → q = p.put z { u with output := { u.output with fan := counted } }) ∧
      (due →
        q =
          p.put z
            { u with
              output :=
                { u.output.off with
                  fan :=
                    { counted with
                      machine := if fan.machine = .runFwd then .dwellToRev else .dwellToFwd
                      dwellTimer := some ((p.work.config.zones.get z).dwell * 1000) } } })

/-! ### The bytes of a reply

The layout of every reply, from the fields of R175 and the items that the rules list. The numbers of enumerations are places in
the manual's own lists. What R175 leaves open here is the model's reading: two-valued fields, log entry 9; the order and the
counts of items, log entry 14; remaining minutes, log entry 25; the FAN-DIR level, log entry 34. -/

/-- One unsigned byte. -/
def Layout.octet (n : Nat) : List Byte := [BitVec.ofNat 8 n]

/-- Two unsigned bytes, high byte first. -/
def Layout.word (n : Nat) : List Byte := [BitVec.ofNat 8 (n / 256), BitVec.ofNat 8 (n % 256)]

/-- A temperature, a temperature difference or a result: two bytes in two's complement. -/
def Layout.signed (x : Int) : List Byte := Layout.word (x % 65536).toNat

/-- A value of an enumeration: its place in the manual's list. -/
def Layout.place {α : Type} [DecidableEq α] (values : List α) (x : α) : List Byte := Layout.octet (values.idxOf x)

/-- "yes, no", "on, off", "ACTIVE, INACTIVE", "HIGH, LOW". -/
def Layout.first (b : Bool) : List Byte := Layout.place [true, false] b

/-- The number of a set: one bit per member in the listed order, least significant first. -/
def Layout.bits (members : List Bool) : Nat := (members.zipIdx.map fun m => if m.1 then 2 ^ m.2 else 0).sum

/-- A set of at most eight members. -/
def Layout.members (members : List Bool) : List Byte := Layout.octet (Layout.bits members)

/-- A presence byte and the bytes of the value, zeros when it is absent. -/
def Layout.optional {α : Type} (width : Nat) (spell : α → List Byte) (x : Option α) : List Byte :=
  match x with
  | none => List.replicate (width + 1) 0
  | some y => 1 :: spell y

/-- A one-byte count and the members. -/
def Layout.counted {α : Type} (spell : α → List Byte) (xs : List α) : List Byte :=
  Layout.octet xs.length ++ (xs.map spell).flatten

/-- A zone A..D. -/
def Layout.zone : Zone → List Byte := Layout.place [.a, .b, .c, .d]

/-- A phase (R57). -/
def Layout.phase : Phase → List Byte := Layout.place [.warmup, .drying, .equalize, .condition, .cooldown]

/-- A zone state (R73). -/
def Layout.state : ZoneState → List Byte :=
  Layout.place
    [.idle, .starting, .phase .warmup, .phase .drying, .phase .equalize, .phase .condition, .phase .cooldown, .held, .safe,
      .done, .resumePending]

/-- An exit reason (R97). -/
def Layout.reason : ExitReason → List Byte := Layout.place [.sensorMet, .timeOnly, .maxTime, .skipped]

/-- An alert pair (R179): its scope A, B, C, D, DEVICE and its kind. -/
def Layout.alert : Alert → List Byte
  | .zone z k =>
    Layout.zone z ++
      Layout.place
        [.stepAdvanced, .phaseChanged, .forcedAdvance, .runDone, .startFailed, .probeFailed, .probeShortage, .safeEntered,
          .targetClamped, .groupDetached, .resumeWaiting, .checkpointLost] k
  | .device k =>
    Layout.octet 4 ++ Layout.place [.resetSeen, .overrideLapsed, .storeDefaulted, .unreachableProbes] k

/-- The nine fields of a step record (R56). -/
def Layout.step (x : StepRecord) : List Byte :=
  [Layout.first x.last, Layout.signed x.db, Layout.signed x.depression, Layout.octet x.rampRate, Layout.word x.mcThreshold,
    Layout.place [.used, .notUsed] x.sensor, Layout.word x.minTime, Layout.word x.maxTime, Layout.word x.fanInterval].flatten

/-- A validation finding: phase, reason, record (R66). -/
def Layout.finding (f : Finding) : List Byte :=
  [Layout.phase f.phase, Layout.place [.noEntry, .blankRecord, .noMarker, .stepOutside] f.reason,
    Layout.optional 1 (fun i : Fin 128 => Layout.octet i) f.record].flatten

/-- A last start failure (R80). -/
def Layout.failure (f : StartFailure) : List Byte :=
  [Layout.place [.host, .line, .timer, .group] f.source, Layout.place [.fieldDisabled, .badSchedule, .timeout] f.cause,
    Layout.optional 4 Layout.finding f.finding,
    Layout.optional 1 (fun u : Unmet => Layout.members [u.door, u.fan, u.probes, u.climate, u.group]) f.unmet].flatten

/-- A CMC with its flag (R51). -/
def Layout.cmc (c : Cmc) : List Byte := Layout.signed c.value ++ Layout.members [c.aboveRange]

/-- The three flags of a reading (R36). -/
def Layout.flags (f : MoistureFlags) : List Byte := Layout.members [f.aboveRange, f.belowRange, f.uncorrected]

/-- A run record entry (R97). -/
def Layout.entry (e : RunEntry) : List Byte :=
  [Layout.place [.started, .stepLeft, .held, .resumed, .safeEntered, .safeLeft, .aborted, .done, .restarted] e.kind,
    Layout.word e.minute, Layout.octet ((e.step.map Fin.val).getD 0), Layout.optional 1 Layout.reason e.reason,
    Layout.optional 3 Layout.cmc e.cmc, Layout.optional 2 Layout.signed e.dmc].flatten

/-- A probe's configuration (R48). -/
def Layout.probe (c : ProbeConfig) : List Byte :=
  [Layout.optional 1 Layout.zone c.zone, Layout.place [.moisture, .woodTemp] c.kind, Layout.octet c.bank,
    Layout.octet c.position, Layout.octet c.group, Layout.optional 1 (fun i : Fin 64 => Layout.octet i) c.source].flatten

/-- A probe's runtime record (R38, R48). -/
def Layout.record (r : ProbeRecord) : List Byte :=
  [Layout.place [.unseen, .valid, .held, .short, .open, .failed, .excluded, .unreachable] r.state,
    Layout.optional 2 Layout.signed r.lastRaw, Layout.optional 2 Layout.signed r.lastAccepted, Layout.flags r.flags,
    Layout.optional 2 Layout.signed r.candidate, Layout.octet r.heldCount, Layout.octet r.failStreak,
    Layout.optional 2 Layout.word r.runMinute].flatten

/-- A spot result (R22). -/
def Layout.spot (r : SpotReading) : List Byte :=
  [Layout.octet r.entry, Layout.place [.moisture, .woodTemp] r.kind, Layout.signed r.raw,
    Layout.place [.inRange, .short, .open] r.classification,
    if r.kind = .moisture then
      Layout.optional 3 (fun x : Int × MoistureFlags => Layout.signed x.1 ++ Layout.flags x.2) r.value
    else Layout.optional 2 (fun x : Int × MoistureFlags => Layout.signed x.1) r.value].flatten

/-- The items of ST (R180). -/
def Layout.status (r : StatusReport) : List Byte :=
  [Layout.place [.locked, .open, .barred] r.gate, Layout.first r.cause.powerOn, Layout.first r.cause.pin,
    Layout.first r.cause.commanded, Layout.place [.powerOn, .pin, .commanded] r.cause.lastKind, Layout.word r.checkErrors,
    Layout.word r.overruns, Layout.first r.fieldEnabled,
    (everyZone.map fun z =>
      Layout.state (r.zones.get z).1 ++ Layout.optional 1 Layout.phase (r.zones.get z).2).flatten,
    Layout.counted Layout.alert r.alerts].flatten

/-- The fields of KILN (R176). -/
def Layout.kilnItem (c : KilnConfig) : List Byte :=
  [Layout.signed c.maximumDb, Layout.signed c.overtempMargin, Layout.place [.open, .closed] c.safeVent,
    Layout.place [.run, .stop] c.safeFan, Layout.octet c.startTimeout, Layout.octet c.overrideTimeout].flatten

/-- The fields of ZONE (R176). -/
def Layout.zoneItem (c : ZoneConfig) : List Byte :=
  [Layout.octet c.passInterval, Layout.octet c.k, Layout.octet c.nmin, Layout.octet c.jumpLimit, Layout.octet c.failCount,
    Layout.signed c.pbHeat, Layout.signed c.pbHum, Layout.word c.pulsePeriod, Layout.octet c.proofDelay, Layout.word c.dwell,
    Layout.signed c.warmupTolerance, Layout.octet c.equalizeSpread,
    Layout.members [c.startMask.host, c.startMask.line, c.startMask.timer],
    Layout.members [c.preconditions.door, c.preconditions.fan, c.preconditions.probes], Layout.first c.grouped,
    Layout.first c.autoResume].flatten

/-- The fields of WINDOW (R8, R176). -/
def Layout.windowItem (c : WindowConfig) : List Byte :=
  [Layout.octet c.bank, Layout.octet c.first, Layout.octet c.count, Layout.word c.settle, Layout.octet c.samples,
    Layout.first c.switchSettle].flatten

/-- The fields of LINE (R146, R176). -/
def Layout.lineItem (c : LineConfig) : List Byte :=
  [Layout.place [.none, .door, .fanProof, .startButton, .holdIn, .alarmOut, .generalIn, .generalOut] c.role,
    Layout.zone c.zone, Layout.place [.activeHigh, .activeLow] c.polarity, Layout.octet c.debounce, Layout.first c.safeActive,
    Layout.first c.keep].flatten

/-- A line of LR (R154). -/
def Layout.line (r : LineReading) : List Byte :=
  [Layout.first r.latch, Layout.first r.pin, Layout.first r.debounced, Layout.first r.settled, Layout.first r.timing].flatten

/-- A time-proportioned output of ZR (R131): pin level, automatic level, on-time, override entry. -/
def Layout.output (pin : Bool) (o : AutoOutput) (e : OverrideEntry) : List Byte :=
  [Layout.first pin, Layout.first o.level, Layout.word o.onTime, Layout.place [.auto, .on, .off] e].flatten

/-- A sensor of ZR (R131): status, measured value, good streak. -/
def Layout.sensor (r : SensorRecord) : List Byte :=
  [Layout.place [.unsampled, .good, .faulty] r.status, Layout.optional 2 Layout.signed r.value,
    Layout.octet r.goodStreak].flatten

/-- A safe-cause set (R133). -/
def Layout.causes (c : SafeCauses) : List Byte := Layout.members [c.door, c.sensor, c.fan, c.overtemp]

/-- The context of ZR (R101), with the group's items (R113). -/
def Layout.context (r : ZoneReading) : List Byte :=
  [Layout.state r.state, Layout.optional 1 Layout.phase r.underlying, Layout.members [r.holds.host, r.holds.line],
    Layout.first r.holdPending, Layout.optional 1 (fun i : Fin 128 => Layout.octet i) r.stepIndex, Layout.word r.stepClock,
    Layout.word r.runClock, Layout.optional 1 Layout.reason r.eligible, Layout.first r.waiting, Layout.first r.detached,
    Layout.optional 1 Layout.octet r.startTimeout, Layout.optional 9 Layout.failure r.lastFailure,
    Layout.first r.grouped, Layout.word r.waitCount].flatten

/-- The aggregate of ZR (R54). -/
def Layout.aggregate (a : Aggregate) : List Byte :=
  [Layout.octet a.count, Layout.optional 3 Layout.cmc a.cmc, Layout.optional 2 Layout.signed a.dmc,
    Layout.counted (fun i : Fin 64 => Layout.octet i) a.contributing, Layout.optional 2 Layout.signed a.zwt,
    Layout.first a.blind].flatten

/-- The setpoints, targets and sensors of ZR (R131). -/
def Layout.climate (r : ZoneReading) : List Byte :=
  [Layout.optional 2 Layout.signed r.dbSetpoint, Layout.optional 2 Layout.signed r.wbSetpoint, Layout.signed r.reportedDb,
    Layout.signed r.reportedWb, Layout.octet r.rampRate, Layout.first r.rampInFlight, Layout.sensor r.db,
    Layout.sensor r.wb].flatten

/-- The outputs and the fans of ZR, and its part-wide items (R131). -/
def Layout.outputs (r : ZoneReading) : List Byte :=
  [Layout.output r.pins.heat r.heat r.overrides.heat, Layout.output r.pins.spray r.spray r.overrides.spray,
    Layout.output r.pins.vent r.vent r.overrides.vent,
    Layout.place [.stopped, .runFwd, .dwellToRev, .runRev, .dwellToFwd] r.fan.machine,
    Layout.place [.forward, .reverse] r.fan.direction, Layout.word r.fan.reversalCount, Layout.word r.fan.interval,
    Layout.first r.pins.fanRun, Layout.place [.auto, .on, .off] r.overrides.fanRun,
    Layout.place [false, true] r.pins.fanDir, Layout.place [.auto, .on, .off] r.overrides.fanDir,
    Layout.first r.proofRunning, Layout.first r.fieldEnabled, Layout.optional 1 Layout.octet r.lapse].flatten

/-- The interlock items of ZR (R144). -/
def Layout.interlock (r : ZoneReading) : List Byte :=
  [Layout.causes r.causes, Layout.first r.conditions.door, Layout.first r.conditions.sensor,
    Layout.first r.conditions.overtemp, Layout.first r.conditions.proofOverdue].flatten

/-- The items of ZR in the order of R101: context, step, aggregate, climate and outputs, interlock. -/
def Layout.zoneReading (r : ZoneReading) : List Byte :=
  [Layout.context r, Layout.optional 15 Layout.step r.activeCopy, Layout.aggregate r.aggregate, Layout.climate r,
    Layout.outputs r, Layout.interlock r].flatten

/-- The bytes that follow the status byte of a reply, for every content that an answer can have. -/
def Layout.content : Content → List Byte
  | .none => []
  | .identity straps =>
    [[0x5A, 0x65, 0x63, 0x6A, 0x6F, 0x72, 0x5A, 0x4B, 0x2D, 0x34, 0x34, 0x30, Config.revisionLevel],
      Layout.octet straps.station, Layout.octet straps.bd.toNat, Layout.octet straps.arrangement, Layout.octet 64,
      Layout.octet 4, Layout.octet 16, Layout.octet 128].flatten
  | .status r => Layout.status r
  | .alertsLeft n => Layout.octet n
  | .kiln c => Layout.kilnItem c
  | .zoneItem c => Layout.zoneItem c
  | .group c => Layout.first c.holdTogether ++ Layout.word c.waitLimit
  | .scan c => [Layout.place [.equal, .favor] c.mode, Layout.zone c.favoured, Layout.first c.spotEnabled].flatten
  | .window c => Layout.windowItem c
  | .default c => Layout.word c.settle ++ Layout.octet c.samples
  | .line c => Layout.lineItem c
  | .probe c Option.none => Layout.probe c ++ [0]
  | .probe c (some r) => Layout.probe c ++ [1] ++ Layout.record r
  | .spotPending i => Layout.octet i
  | .spotReading r => Layout.spot r
  | .species g => Layout.word g.k ++ (g.knots.cells.map Layout.word).flatten
  | .recordWritten i => Layout.octet i
  | .recordRead i Option.none => Layout.octet i ++ [0]
  | .recordRead i (some x) => Layout.octet i ++ [1] ++ Layout.step x
  | .entries e =>
    ([e.get .warmup, e.get .drying, e.get .equalize, e.get .condition, e.get .cooldown].map
      (Layout.optional 1 fun i : Fin 128 => Layout.octet i)).flatten
  | .finding f => Layout.finding f
  | .causes c => Layout.causes c
  | .delayLeft m => Layout.optional 2 Layout.word m
  | .lapseLeft m => Layout.optional 1 Layout.octet m
  | .latches l => Layout.word (Layout.bits l.cells)
  | .lines l => (l.cells.map Layout.line).flatten
  | .zone r => Layout.zoneReading r
  | .runRecord dropped length page =>
    [Layout.word dropped, Layout.octet length, (page.map Layout.entry).flatten].flatten

end Sys2Proof.Machine
end

