-- ==== Sys2Proof/Certificates/Slice0/Obligations.lean ====
section
/-! DEFINITION. The statements for the provers. -/

open Sys2Proof Sys2Proof.Machine

/-! ### The step, the reset state -/

/-- A step takes the command at the front of the queue and is `exec` of it on the state with the queue's rest. -/
def Obligations.StepRunsFrontCommand : Prop :=
  ∀ (s : State) (c : Instr) (rest : List Instr), s.pending = c :: rest → step s = exec c { s with pending := rest }

/-- A step on an empty queue is one millisecond: while the part runs every running timer has one less to run and nothing else
changes, and otherwise nothing changes. The model's choice, log entry 4. -/
def Obligations.EmptyQueueIsOneMillisecond : Prop :=
  ∀ s : State, s.pending = [] →
    (s.mode ≠ .running → step s = .next s) ∧
    (s.mode = .running →
      ∃ p : Plant, step s = .next { s with plant := p } ∧
        s.plant.SameBeyondZones { p with delayedStart := s.plant.delayedStart, lapse := s.plant.lapse } ∧
        p.alerts = s.plant.alerts ∧ p.attn = s.plant.attn ∧ p.queue = s.plant.queue ∧
        p.delayedStart = s.plant.delayedStart.map (· - 1) ∧ p.lapse = s.plant.lapse.map (· - 1) ∧
        p.groupTimeout = s.plant.groupTimeout.map (· - 1) ∧
        (∀ i, p.lines.get i = { s.plant.lines.get i with timer := (s.plant.lines.get i).timer.map (· - 1) }) ∧
        ∀ z, p.unit z =
          { s.plant.unit z with
            ctx :=
              { (s.plant.unit z).ctx with
                startTimeout := (s.plant.unit z).ctx.startTimeout.map (· - 1)
                minuteTimer := (s.plant.unit z).ctx.minuteTimer.map (· - 1) }
            climate :=
              { (s.plant.unit z).climate with
                sampleTimer := (s.plant.unit z).climate.sampleTimer.map (· - 1)
                rampTimer := (s.plant.unit z).climate.rampTimer.map (· - 1) }
            output :=
              { (s.plant.unit z).output with
                pulseTimer := (s.plant.unit z).output.pulseTimer.map (· - 1)
                heat := { (s.plant.unit z).output.heat with timer := (s.plant.unit z).output.heat.timer.map (· - 1) }
                spray := { (s.plant.unit z).output.spray with timer := (s.plant.unit z).output.spray.timer.map (· - 1) }
                vent := { (s.plant.unit z).output.vent with timer := (s.plant.unit z).output.vent.timer.map (· - 1) }
                fan :=
                  { (s.plant.unit z).output.fan with
                    dwellTimer := (s.plant.unit z).output.fan.dwellTimer.map (· - 1) }
                proofTimer := (s.plant.unit z).output.proofTimer.map (· - 1) }
            pass := { (s.plant.unit z).pass with timer := (s.plant.unit z).pass.timer.map (· - 1) } })

/-- The values that the state tables of the manual give after a reset stand at `State.reset` (R23, R72, R102, R104, R132,
R145, R155, R165, R183). The levels applied to the straps and lines are the model's choice, log entries 1 and 2. And the reset
state keeps every law that the invariant statements are about. -/
def Obligations.ResetState : Prop :=
  (State.reset.mode = .running ∧ State.reset.pending = [] ∧
   State.reset.link.receiver = .hunt ∧ State.reset.link.txen = false ∧ State.reset.link.unanswered = none ∧
   State.reset.link.gate = .locked ∧ State.reset.link.checkErrors = 0 ∧ State.reset.link.overruns = 0 ∧
   State.reset.link.cause = { powerOn := true, pin := false, commanded := false, lastKind := .powerOn } ∧
   State.reset.plant.alerts = [.device .resetSeen] ∧ State.reset.plant.attn = true ∧
   State.reset.plant.cursor = 0 ∧ State.reset.plant.frontEnd.inFlight = none ∧ State.reset.plant.frontEnd.previous = none ∧
   State.reset.plant.arbiter = { pointer := .spot, turn := .favoured } ∧ State.reset.plant.spot = .empty ∧
   State.reset.plant.mux = 0 ∧ State.reset.plant.queue = { inFlight := none, waiting := [] } ∧
   State.reset.plant.delayedStart = none ∧ State.reset.plant.lapse = none ∧ State.reset.plant.groupTimeout = none ∧
   State.reset.plant.fieldEnabled = false ∧
   (∀ i, State.reset.plant.records.get i = none) ∧
   (∀ i, (State.reset.plant.lines.get i).latch = false ∧ (State.reset.plant.lines.get i).debounced = false ∧
     (State.reset.plant.lines.get i).settled = false ∧ (State.reset.plant.lines.get i).timer = some 50) ∧
   ∀ z,
     (State.reset.plant.ctx z).state = .idle ∧ (State.reset.plant.ctx z).stepIndex = none ∧
     (State.reset.plant.ctx z).stepClock = 0 ∧ (State.reset.plant.ctx z).runClock = 0 ∧
     (State.reset.plant.ctx z).runRecord = [] ∧ (State.reset.plant.ctx z).dropped = 0 ∧
     (State.reset.plant.ctx z).lastFailure = none ∧ (State.reset.plant.ctx z).minuteTimer = some 60000 ∧
     (State.reset.plant.unit z).causes = {} ∧ (State.reset.plant.unit z).proofOverdue = false ∧
     (State.reset.plant.unit z).climate =
       { sampleTimer := some 10000, db := { status := .unsampled, value := none, goodStreak := 0 },
         wb := { status := .unsampled, value := none, goodStreak := 0 }, dbSetpoint := none, wbSetpoint := none,
         rampRate := 0, dbTarget := 0, wbTarget := 0, rampTimer := none } ∧
     (State.reset.plant.unit z).output.pulseTimer = some 60000 ∧
     (State.reset.plant.unit z).output.overrides =
       { heat := .auto, spray := .auto, vent := .auto, fanRun := .auto, fanDir := .auto } ∧
     (State.reset.plant.unit z).output.fan =
       { machine := .stopped, direction := .forward, reversalCount := 0, interval := 0, dwellTimer := none } ∧
     (State.reset.plant.unit z).output.pins =
       { heat := false, spray := false, vent := false, fanRun := false, fanDir := false } ∧
     (State.reset.plant.unit z).pass.due = false ∧ (State.reset.plant.unit z).pass.timer = some 900000) ∧
  (State.reset.PinsLawful ∧ State.reset.plant.AlertsLawful ∧ State.reset.QueueLawful ∧
     (∀ z, (State.reset.plant.unit z).Consistent) ∧ State.reset.Bounded ∧ State.reset.plant.CurvesLawful ∧
     State.reset.plant.AddressesLawful ∧
     ((∃ r, State.reset.plant.requests r = true) → State.reset.plant.frontEnd.inFlight.isSome = true))

/-! ### Requests that read -/

/-- ID, ST, CR, GR, PR, ER, LR, RR and DS QUERY: each is answered OK with the items that R182, R180, R176, R34, R48, R60, R154,
R99 and R85 name, as they stand; an undefined item or index is refused BAD_VALUE; nothing else changes. The item codes 0..6 of
CR follow the order of R176, and GR is answered in every gate state. The codes are the model's reading, log entry 7, and so are
the minutes that DS QUERY answers, minutes begun counting as whole, log entry 25. -/
def Obligations.ReadRequests : Prop :=
  (∀ (s : State) (env : Envelope),
     (s.Ready .id →
       exec (.identify env) s =
         .next (s.answered .id env s.plant { status := .ok, content := .identity s.plant.straps })) ∧
     (s.Ready .st →
       exec (.status env) s =
         .next
           (s.answered .st env s.plant
             { status := .ok
               content :=
                 .status
                   { gate := s.link.gate
                     cause := s.link.cause
                     checkErrors := s.link.checkErrors
                     overruns := s.link.overruns
                     fieldEnabled := s.plant.fieldEnabled
                     zones :=
                       ⟨((s.plant.ctx .a).state, (s.plant.ctx .a).underlying),
                         ((s.plant.ctx .b).state, (s.plant.ctx .b).underlying),
                         ((s.plant.ctx .c).state, (s.plant.ctx .c).underlying),
                         ((s.plant.ctx .d).state, (s.plant.ctx .d).underlying)⟩
                     alerts := s.plant.alerts } }))) ∧
  (∀ (s : State) (env : Envelope), s.Ready .cr →
     (∀ n, exec (.configurationRead env 0 n) s =
       .next (s.answered .cr env s.plant { status := .ok, content := .kiln s.plant.work.config.kiln })) ∧
     (∀ z : Zone, exec (.configurationRead env 1 z.code) s =
       .next (s.answered .cr env s.plant { status := .ok, content := .zoneItem (s.plant.work.config.zones.get z) })) ∧
     (∀ n, exec (.configurationRead env 2 n) s =
       .next (s.answered .cr env s.plant { status := .ok, content := .group s.plant.work.config.group })) ∧
     (∀ n, exec (.configurationRead env 3 n) s =
       .next (s.answered .cr env s.plant { status := .ok, content := .scan s.plant.work.config.scan })) ∧
     (∀ w : Fin 4, exec (.configurationRead env 4 w.val) s =
       .next (s.answered .cr env s.plant { status := .ok, content := .window (s.plant.work.config.windows.get w) })) ∧
     (∀ n, exec (.configurationRead env 5 n) s =
       .next (s.answered .cr env s.plant { status := .ok, content := .default s.plant.work.config.default })) ∧
     (∀ i : Fin 16, exec (.configurationRead env 6 i.val) s =
       .next (s.answered .cr env s.plant { status := .ok, content := .line (s.plant.work.config.lines.get i) })) ∧
     (∀ item n, 7 ≤ item ∨ (item = 1 ∧ 4 ≤ n) ∨ (item = 4 ∧ 4 ≤ n) ∨ (item = 6 ∧ 16 ≤ n) →
       exec (.configurationRead env item n) s = .next (s.answered .cr env s.plant { status := .badValue }))) ∧
  (∀ (s : State) (env : Envelope), s.mode = .running → s.link.txen = false → s.link.unanswered = none →
     (∀ i : Fin 8, exec (.speciesRead env i.val) s =
       .next (s.answered .gr env s.plant { status := .ok, content := .species (s.plant.work.species.get i) })) ∧
     (∀ n, 8 ≤ n → exec (.speciesRead env n) s = .next (s.answered .gr env s.plant { status := .badValue }))) ∧
  (∀ (s : State) (env : Envelope),
     (s.Ready .pr →
       (∀ i : Fin 64, exec (.probeRead env i.val) s =
         .next (s.answered .pr env s.plant
           { status := .ok, content := .probe (s.plant.work.probes.get i) (s.plant.records.get i) })) ∧
       (∀ n, 64 ≤ n → exec (.probeRead env n) s = .next (s.answered .pr env s.plant { status := .badValue }))) ∧
     (s.Ready .er →
       (∀ z : Zone, exec (.entryTableRead env z.code) s =
         .next (s.answered .er env s.plant { status := .ok, content := .entries (s.plant.work.entries.get z) })) ∧
       (∀ n, 4 ≤ n → exec (.entryTableRead env n) s = .next (s.answered .er env s.plant { status := .badValue }))) ∧
     (s.Ready .lr →
       ∃ l : Table 16 LineReading,
         exec (.lineRead env) s = .next (s.answered .lr env s.plant { status := .ok, content := .lines l }) ∧
         ∀ i, l.get i =
           { latch := (s.plant.lines.get i).latch
             pin := (s.plant.lines.get i).pin
             debounced := (s.plant.lines.get i).debounced
             settled := (s.plant.lines.get i).settled
             timing := (s.plant.lines.get i).timer.isSome }) ∧
     (s.Ready .rr →
       (∀ (z : Zone) (n : Nat), n ≤ 47 →
         exec (.runRecordRead env z.code n) s =
           .next (s.answered .rr env s.plant
             { status := .ok
               content :=
                 .runRecord (s.plant.ctx z).dropped (s.plant.ctx z).runRecord.length
                   (((s.plant.ctx z).runRecord.drop n).take 12) })) ∧
       (∀ y n, 4 ≤ y ∨ 48 ≤ n →
         exec (.runRecordRead env y n) s = .next (s.answered .rr env s.plant { status := .badValue }))) ∧
     (s.Ready .ds →
       exec (.delayedStartQuery env) s =
         .next (s.answered .ds env s.plant
           { status := .ok, content := .delayLeft (s.plant.delayedStart.map fun ms => (ms + 59999) / 60000) })))

/-- ZR: answered OK with the items of R101, R54, R113, R131 and R144 as they stand, BAD_VALUE outside A..D; nothing else
changes. The minutes shown and the items computed from others are the model's reading, log entries 25 and 26. -/
def Obligations.ZoneReads : Prop :=
  ∀ (s : State) (env : Envelope), s.Ready .zr →
    (∀ n, 4 ≤ n → exec (.zoneRead env n) s = .next (s.answered .zr env s.plant { status := .badValue })) ∧
    ∀ z : Zone, ∃ r : ZoneReading,
      exec (.zoneRead env z.code) s = .next (s.answered .zr env s.plant { status := .ok, content := .zone r }) ∧
      r.state = (s.plant.ctx z).state ∧ r.underlying = (s.plant.ctx z).underlying ∧ r.holds = (s.plant.ctx z).holds ∧
      r.holdPending = (s.plant.ctx z).holdPending ∧ r.stepIndex = (s.plant.ctx z).stepIndex ∧
      r.stepClock = (s.plant.ctx z).stepClock ∧ r.runClock = (s.plant.ctx z).runClock ∧
      r.eligible = (s.plant.ctx z).eligible ∧ r.waiting = (s.plant.ctx z).waiting ∧
      r.detached = (s.plant.ctx z).detached ∧ r.waitCount = (s.plant.ctx z).waitCount ∧
      r.lastFailure = (s.plant.ctx z).lastFailure ∧ r.activeCopy = (s.plant.ctx z).activeCopy ∧
      r.grouped = (s.plant.work.config.zones.get z).grouped ∧
      r.startTimeout =
        (if (s.plant.work.config.zones.get z).grouped = true ∧ (s.plant.ctx z).state = .starting then s.plant.groupTimeout
         else (s.plant.ctx z).startTimeout).map (fun ms => (ms + 59999) / 60000) ∧
      r.aggregate = (s.plant.unit z).aggregate ∧ r.dbSetpoint = (s.plant.unit z).climate.dbSetpoint ∧
      r.wbSetpoint = (s.plant.unit z).climate.wbSetpoint ∧ r.rampRate = (s.plant.unit z).climate.rampRate ∧
      r.reportedDb = ((s.plant.unit z).climate.dbTarget * 2 + 60) / 120 ∧
      r.reportedWb = ((s.plant.unit z).climate.wbTarget * 2 + 60) / 120 ∧
      (r.rampInFlight = true ↔ (s.plant.ctx z).state.inPhase = true ∧ (s.plant.unit z).climate.Away) ∧
      r.db = (s.plant.unit z).climate.db ∧ r.wb = (s.plant.unit z).climate.wb ∧ r.heat = (s.plant.unit z).output.heat ∧
      r.spray = (s.plant.unit z).output.spray ∧ r.vent = (s.plant.unit z).output.vent ∧
      r.overrides = (s.plant.unit z).output.overrides ∧ r.pins = (s.plant.unit z).output.pins ∧
      r.fan = (s.plant.unit z).output.fan ∧ r.proofRunning = (s.plant.unit z).output.proofTimer.isSome ∧
      r.fieldEnabled = s.plant.fieldEnabled ∧ r.lapse = s.plant.lapse.map (fun ms => (ms + 59999) / 60000) ∧
      r.causes = (s.plant.unit z).causes ∧ r.conditions.door = s.plant.doorOpen ∧
      r.conditions.sensor =
        ((s.plant.unit z).climate.db.status == .faulty || (s.plant.unit z).climate.wb.status == .faulty) ∧
      (r.conditions.overtemp = true ↔
        ∃ x, (s.plant.unit z).climate.db.status = .good ∧ (s.plant.unit z).climate.db.value = some x ∧
          s.plant.work.config.kiln.maximumDb + s.plant.work.config.kiln.overtempMargin < x) ∧
      r.conditions.proofOverdue = (s.plant.unit z).proofOverdue

/-! ### Requests on the link's own state -/

/-- UN, CD, AK, RS and CC (R177, R181, R162, R165). UN in OPEN and in BARRED answers OK and DENIED and leaves the gate; in
LOCKED the code decides between OPEN and BARRED. CD replaces the code of the working copy and queues its host item. AK refuses
an undefined pair whole; otherwise exactly the listed pairs leave the set, ATTN# follows, and the number left is answered. RS
is answered OK, changes nothing, and marks that its reset follows the reply. CC makes the marks of the cause record no and
both counters 0 and keeps the last kind. -/
def Obligations.LinkRequests : Prop :=
  (∀ (s : State) (env : Envelope) (code : List Byte), code.length = 8 →
     (s.Ready .un →
       (s.link.gate = .open → exec (.unlock env code) s = .next (s.answered .un env s.plant { status := .ok })) ∧
       (s.link.gate = .barred → exec (.unlock env code) s = .next (s.answered .un env s.plant { status := .denied })) ∧
       (s.link.gate = .locked → code = s.plant.work.code →
         exec (.unlock env code) s =
           .next (State.answered { s with link := { s.link with gate := .open } } .un env s.plant { status := .ok })) ∧
       (s.link.gate = .locked → code ≠ s.plant.work.code →
         exec (.unlock env code) s =
           .next
             (State.answered { s with link := { s.link with gate := .barred } } .un env s.plant { status := .denied }))) ∧
     (s.Ready .cd → s.plant.Levelled →
       exec (.changeCode env code) s =
         .next
           (s.answered .cd env
             (({ s.plant with work := { s.plant.work with code := code } } : Plant).enqueue (.host .accessCode))
             { status := .ok, stores := true }))) ∧
  (∀ (s : State) (env : Envelope) (pairs : List (Nat × Nat)), s.Ready .ak → s.plant.Levelled →
     ((∃ x ∈ pairs, ¬((x.1 ≤ 3 ∧ x.2 ≤ 11) ∨ (x.1 = 4 ∧ x.2 ≤ 3))) →
       exec (.acknowledgeAlerts env pairs) s = .next (s.answered .ak env s.plant { status := .badValue })) ∧
     ((∀ x ∈ pairs, (x.1 ≤ 3 ∧ x.2 ≤ 11) ∨ (x.1 = 4 ∧ x.2 ≤ 3)) →
       ∃ left : List Alert,
         (∀ a, a ∈ left ↔ a ∈ s.plant.alerts ∧ (a.scopeCode, a.kindCode) ∉ pairs) ∧ left.Sublist s.plant.alerts ∧
         exec (.acknowledgeAlerts env pairs) s =
           .next
             (s.answered .ak env { s.plant with alerts := left, attn := !left.isEmpty }
               { status := .ok, content := .alertsLeft left.length }))) ∧
  (∀ (s : State) (env : Envelope),
     (s.Ready .rs →
       ∃ t, exec (.rsReset env) s = .next t ∧ t = s.answered .rs env s.plant { status := .ok } ∧
         ∃ u, t.link.unanswered = some u ∧ u.resets = true ∧ u.awaitsStore = false) ∧
     (s.Ready .cc →
       exec (.clearCauses env) s =
         .next
           (State.answered
             { s with
               link :=
                 { s.link with
                   cause := { powerOn := false, pin := false, commanded := false, lastKind := s.link.cause.lastKind }
                   checkErrors := 0
                   overruns := 0 } }
             .cc env s.plant { status := .ok })))

/-- R178: outside OPEN every kind but the sixteen listed is refused DENIED, and neither the plant nor the gate changes. The
sixteen are answered in every gate state, DENIED by UN alone; but for UN, which moves the gate, and ST, which reports it, they
do and answer the same in each. No request but UN moves the gate. -/
def Obligations.GateRule : Prop :=
  ∀ (s : State) (i : Instr) (env : Envelope) (kind : RequestKind),
    i.envelope = some env → i.kind = some kind → s.mode = .running → s.link.txen = false → s.link.unanswered = none →
    (kind ∉ [.id, .st, .ak, .un, .hd, .sp, .sr, .zr, .rr, .pr, .gr, .sn, .er, .cr, .lr, .sc] → s.link.gate ≠ .open →
      exec i s = .next (s.answered kind env s.plant { status := .denied })) ∧
    (kind ∈ [.id, .st, .ak, .un, .hd, .sp, .sr, .zr, .rr, .pr, .gr, .sn, .er, .cr, .lr, .sc] →
      ∃ t u, exec i s = .next t ∧ t.link.unanswered = some u ∧ (u.answer.status = .denied → kind = .un)) ∧
    (kind ∈ [.id, .ak, .hd, .sp, .sr, .zr, .rr, .pr, .gr, .sn, .er, .cr, .lr, .sc] →
      ∀ (t : State) (g : Gate), exec i s = .next t →
        exec i { s with link := { s.link with gate := g } } = .next { t with link := { t.link with gate := g } }) ∧
    (kind ≠ .un → ∀ t, exec i s = .next t → t.link.gate = s.link.gate)

/-! ### The schedule store -/

/-- R62 and R64, in any gate state: SC sets the cursor for an index in 0..127 and refuses any other index; SN answers with the
index and the record at the cursor and moves the cursor one further, from 127 to 0; the cursor is 0 after every reset. -/
def Obligations.CursorRule : Prop :=
  (∀ (s : State) (env : Envelope),
     (s.mode = .running → s.link.txen = false → s.link.unanswered = none → s.plant.Levelled →
       (∀ i : Fin 128,
         exec (.setCursor env i.val) s = .next (s.answered .sc env { s.plant with cursor := i } { status := .ok })) ∧
       ∀ n, 128 ≤ n → exec (.setCursor env n) s = .next (s.answered .sc env s.plant { status := .badValue })) ∧
     ∀ (sta : BitVec 5) (bd mxs : BitVec 2), (∃ k, s.mode = .inReset k) →
       ∃ t, exec (.restart sta bd mxs) s = .next t ∧ t.plant.cursor = 0) ∧
  (∀ (s : State) (env : Envelope),
     s.mode = .running → s.link.txen = false → s.link.unanswered = none → s.plant.Levelled →
       ∃ c : Fin 128,
         (c.val = if s.plant.cursor.val = 127 then 0 else s.plant.cursor.val + 1) ∧
         exec (.readRecord env) s =
           .next
             (s.answered .sn env { s.plant with cursor := c }
               { status := .ok, content := .recordRead s.plant.cursor (s.plant.work.records.get s.plant.cursor) }))

/-- SW (R58, R63, R65): an inconsistent record is refused BAD_VALUE; a guarded target takes no blank record and keeps its
last-in-phase; otherwise the record at the cursor is replaced, the cursor moves on and the host item is queued. That
byte 0 of last-in-phase reads as yes is the model's choice, log entry 9. -/
def Obligations.WriteRecordRule : Prop :=
  ∀ (s : State) (env : Envelope) (r : Option RawStep), s.Ready .sw → s.plant.Levelled →
    ((∃ x, r = some x ∧ ¬x.Consistent) →
      exec (.writeRecord env r) s = .next (s.answered .sw env s.plant { status := .badValue })) ∧
    ((∀ x, r = some x → x.Consistent) →
      let i := s.plant.cursor
      let offered := r.map RawStep.record
      let guarded := ∃ z ph, (s.plant.ctx z).state.guards = true ∧ i ∈ s.plant.extent z ph
      let allowed :=
        ∃ x y, s.plant.work.records.get i = some x ∧ offered = some y ∧ x.last = y.last
      (guarded ∧ ¬allowed →
        exec (.writeRecord env r) s = .next (s.answered .sw env s.plant { status := .wrongState })) ∧
      (¬guarded ∨ allowed →
        ∃ c : Fin 128, (c.val = if i.val = 127 then 0 else i.val + 1) ∧
          exec (.writeRecord env r) s =
            .next
              (s.answered .sw env
                (({ s.plant with
                    work := { s.plant.work with records := s.plant.work.records.set i offered }
                    cursor := c } : Plant).enqueue (.host .schedule))
                { status := .ok, content := .recordWritten i, stores := true })))

/-- The walk of a phase (R59) and the extent it gives: `n` records from the entry on, none of them blank, none before the last
with last-in-phase yes; it ends at a marker, at a blank record, at the 32nd record or at S127. Validation (R66) finds nothing
exactly where DRYING and COOLDOWN have entries and every phase that has one ends its walk at a marker; a finding is in the
first phase that fails, with the reason and the record that its walk gives. The validation of a resumption (R67) makes three
checks in their order: the recorded step's record is not blank, else BLANK_RECORD with its index; validation finds nothing, else
its finding; the step lies in the extent of the recorded phase, else STEP_OUTSIDE with its index. That the findings of the first
and the third check carry the recorded phase is the model's choice, log entry 36, and so is the finding for a checkpoint that
names no run, log entry 13. -/
def Obligations.WalkAndValidationRule : Prop :=
  ((∀ (t : Table 128 (Option StepRecord)) (e : Fin 128),
     ∃ n, n ≤ 32 ∧ e.val + n ≤ 128 ∧ (walk t e).1.map Fin.val = (List.range n).map (e.val + ·) ∧
       (∀ i ∈ (walk t e).1, (t.get i).isSome = true) ∧
       (∀ i ∈ (walk t e).1, i.val + 1 < e.val + n → ∃ r, t.get i = some r ∧ r.last = false) ∧
       ((walk t e).2 = .marker ↔
         0 < n ∧ ∃ i r, i.val + 1 = e.val + n ∧ t.get i = some r ∧ r.last = true) ∧
       (∀ i, (walk t e).2 = .blank i ↔
         n < 32 ∧ i.val = e.val + n ∧ t.get i = none ∧
           ∀ j r, j ∈ (walk t e).1 → t.get j = some r → r.last = false) ∧
       (∀ i, (walk t e).2 = .noMarker i ↔
         (n = 32 ∨ e.val + n = 128) ∧ i.val + 1 = e.val + n ∧
           ∀ j r, j ∈ (walk t e).1 → t.get j = some r → r.last = false)) ∧
   ∀ (p : Plant) (z : Zone) (ph : Phase),
     ((p.work.entries.get z).get ph = none → p.extent z ph = []) ∧
     ∀ e, (p.work.entries.get z).get ph = some e → p.extent z ph = (walk p.work.records e).1) ∧
  (∀ (p : Plant) (z : Zone),
     let e := p.work.entries.get z
     (p.validate z = none ↔
       e.drying.isSome = true ∧ e.cooldown.isSome = true ∧
         ∀ ph i, e.get ph = some i → (walk p.work.records i).2 = .marker) ∧
     ∀ f, p.validate z = some f →
       (∀ ph, ph.code < f.phase.code →
         (e.get ph = none ∧ ph ≠ .drying) ∨ ∃ i, e.get ph = some i ∧ (walk p.work.records i).2 = .marker) ∧
       ((f.reason = .noEntry ∧ f.record = none ∧ e.get f.phase = none ∧ (f.phase = .drying ∨ f.phase = .cooldown)) ∨
         ∃ i j, e.get f.phase = some i ∧ f.record = some j ∧
           ((f.reason = .blankRecord ∧ (walk p.work.records i).2 = .blank j) ∨
             (f.reason = .noMarker ∧ (walk p.work.records i).2 = .noMarker j)))) ∧
  ∀ (p : Plant) (z : Zone) (k : Checkpoint),
    (k.recorded = .idle ∨ k.recorded = .done ∨ k.step = none →
      p.validateResume z k = some { phase := .drying, reason := .blankRecord, record := k.step }) ∧
    ∀ ph i, k.recorded = .phase ph ∨ k.recorded = .held ph → k.step = some i →
      (p.work.records.get i = none →
        p.validateResume z k = some { phase := ph, reason := .blankRecord, record := some i }) ∧
      ((p.work.records.get i).isSome = true →
        (∀ f, p.validate z = some f → p.validateResume z k = some f) ∧
        (p.validate z = none → i ∉ p.extent z ph →
          p.validateResume z k = some { phase := ph, reason := .stepOutside, record := some i }) ∧
        (p.validate z = none → i ∈ p.extent z ph → p.validateResume z k = none))

/-- EW (R61): an undefined zone, or any of the five fields undefined, is refused BAD_VALUE, a zone that runs or starts
WRONG_STATE; otherwise all five fields are replaced, the answer is OK and the host item is queued. That a presence byte above 1
is undefined, and that the value byte of an absent field is not read, is the model's choice, log entry 10. -/
def Obligations.EntryTableWriteRule : Prop :=
  ∀ (s : State) (env : Envelope) (z : Zone) (f : Phase → Option (Fin 128)) (spare : Phase → Nat),
    s.Ready .ew → s.plant.Levelled →
      let raw (ph : Phase) : RawOption :=
        match f ph with
        | none => { presence := 0, value := spare ph }
        | some i => { presence := 1, value := i.val }
      let table : RawEntries :=
        { warmup := raw .warmup, drying := raw .drying, equalize := raw .equalize, condition := raw .condition,
          cooldown := raw .cooldown }
      (∀ n, 4 ≤ n →
        exec (.entryTableWrite env n table) s = .next (s.answered .ew env s.plant { status := .badValue })) ∧
      (∀ o : RawOption, (1 < o.presence ∨ (o.presence = 1 ∧ 127 < o.value)) →
        ∀ bad ∈
          [{ table with warmup := o }, { table with drying := o }, { table with equalize := o },
            { table with condition := o }, { table with cooldown := o }],
          exec (.entryTableWrite env z.code bad) s = .next (s.answered .ew env s.plant { status := .badValue })) ∧
      ((s.plant.ctx z).state.guards = true →
        exec (.entryTableWrite env z.code table) s = .next (s.answered .ew env s.plant { status := .wrongState })) ∧
      ((s.plant.ctx z).state ∈ [.idle, .done, .resumePending] →
        exec (.entryTableWrite env z.code table) s =
          .next
            (s.answered .ew env
              (({ s.plant with
                  work :=
                    { s.plant.work with
                      entries :=
                        s.plant.work.entries.set z
                          { warmup := f .warmup, drying := f .drying, equalize := f .equalize,
                            condition := f .condition, cooldown := f .cooldown } } } : Plant).enqueue
                (.host .entryTables))
              { status := .ok, stores := true }))

/-! ### Species and probes -/

/-- GW (R32, R33): a group, k or knot out of range, or a knot above the one before it, is refused BAD_VALUE; otherwise the ten
fields are replaced, each MC value in the record of every MOISTURE entry of the group is clamped to the new curve and every
other record stays, and the host item is queued. -/
def Obligations.SpeciesWriteRule : Prop :=
  ∀ (s : State) (env : Envelope) (group k : Nat) (knots : List Nat), s.Ready .gw → s.plant.Levelled → knots.length = 9 →
    let legal := group ≤ 7 ∧ k ≤ 500 ∧ (∀ x ∈ knots, x ≤ 999) ∧ knots.Pairwise fun x y => y ≤ x
    (¬legal → exec (.speciesWrite env group k knots) s = .next (s.answered .gw env s.plant { status := .badValue })) ∧
    (legal →
      ∃ (i : Fin 8) (g : SpeciesGroup) (records : Table 64 (Option ProbeRecord)),
        i.val = group ∧ g.k = k ∧ g.knots.cells = knots ∧
        exec (.speciesWrite env group k knots) s =
          .next
            (s.answered .gw env
              (({ s.plant with
                  work := { s.plant.work with species := s.plant.work.species.set i g }
                  records := records } : Plant).enqueue (.host .species))
              { status := .ok, stores := true }) ∧
        ∀ j,
          (((s.plant.work.probes.get j).kind ≠ .moisture ∨ (s.plant.work.probes.get j).group ≠ i) →
            records.get j = s.plant.records.get j) ∧
          ((s.plant.work.probes.get j).kind = .moisture → (s.plant.work.probes.get j).group = i →
            records.get j =
              (s.plant.records.get j).map fun r =>
                { r with
                  lastAccepted := r.lastAccepted.map fun v => max (knots.getD 8 0 : Int) (min (knots.getD 0 0 : Int) v)
                  candidate := r.candidate.map fun v => max (knots.getD 8 0 : Int) (min (knots.getD 0 0 : Int) v) }))

/-- PW, PX and PI. PW (R2, R3) of a configuration `c` to entry `i`: the checks in their order, and a performed PW replaces the
configuration, resets or drops the record, makes a measurement in flight of the entry stale, drops a waiting spot request
whose address is gone, and queues the host item. PX and PI (R46, R47): the cases in their order, with what each changes in the
record; a pass measurement in flight of an excluded entry becomes stale and a spot measurement does not. That a presence byte
above 1 is undefined, and that the value byte of an absent item is not read, is the model's choice, log entry 10. -/
def Obligations.ProbeTableRule : Prop :=
  (∀ (s : State) (env : Envelope) (i : Fin 64) (c : ProbeConfig) (spareZone spareSource : Nat),
     s.Ready .pw → s.plant.Levelled →
       let raw : RawProbe :=
         { zone := match c.zone with | none => ⟨0, spareZone⟩ | some z => ⟨1, z.code⟩
           kind := match c.kind with | .moisture => 0 | .woodTemp => 1
           bank := c.bank.val
           position := c.position.val
           group := c.group.val
           source := match c.source with | none => ⟨0, spareSource⟩ | some j => ⟨1, j.val⟩ }
       let p := s.plant
       let present := c.bank.val < p.straps.banks ∧ c.position.val < 2 ^ p.straps.addressLines
       let table := p.work.probes.set i c
       let sourceOk := c.kind = .moisture → ∀ j, c.source = some j → (table.get j).kind = .woodTemp
       let free (z : Option Zone) := ∀ y, z = some y → (p.ctx y).state ∈ [.idle, .done, .resumePending]
       let statesOk := free (p.work.probes.get i).zone ∧ free c.zone
       let taken :=
         ∃ j, j ≠ i ∧ (p.work.probes.get j).zone.isSome = true ∧ (p.work.probes.get j).bank = c.bank ∧
           (p.work.probes.get j).position = c.position
       let assigned := c.zone.isSome = true
       (∀ n, 64 ≤ n → exec (.probeWrite env n raw) s = .next (s.answered .pw env p { status := .badValue })) ∧
       (∀ r : RawProbe,
         (1 < r.zone.presence ∨ (r.zone.presence = 1 ∧ 3 < r.zone.value) ∨ 1 < r.kind ∨ 3 < r.bank ∨ 63 < r.position ∨
             7 < r.group ∨ 1 < r.source.presence ∨ (r.source.presence = 1 ∧ 63 < r.source.value)) →
           exec (.probeWrite env i.val r) s = .next (s.answered .pw env p { status := .badValue })) ∧
       (((assigned ∧ ¬present) ∨ ¬sourceOk) →
         exec (.probeWrite env i.val raw) s = .next (s.answered .pw env p { status := .badValue })) ∧
       ((assigned → present) → sourceOk → ¬statesOk →
         exec (.probeWrite env i.val raw) s = .next (s.answered .pw env p { status := .wrongState })) ∧
       ((assigned → present) → sourceOk → statesOk → assigned ∧ taken →
         exec (.probeWrite env i.val raw) s = .next (s.answered .pw env p { status := .conflict })) ∧
       ((assigned → present) → sourceOk → statesOk → ¬(assigned ∧ taken) →
         exec (.probeWrite env i.val raw) s =
           .next
             (s.answered .pw env
               (({ p with
                   work := { p.work with probes := table }
                   records := p.records.set i (if c.zone.isSome then some {} else none)
                   frontEnd :=
                     { p.frontEnd with
                       inFlight :=
                         p.frontEnd.inFlight.map fun m => { m with stale := m.stale || decide (m.entry = i) } }
                   spot :=
                     if p.spot = .waiting i ∧ (p.straps.addressExists c.bank c.position) = false then .empty
                     else p.spot } : Plant).enqueue (.host .probeTable))
               { status := .ok, stores := true }))) ∧
  (∀ (s : State) (env : Envelope), s.plant.Levelled →
     (s.Ready .px →
       (∀ n, 64 ≤ n → exec (.excludeProbe env n) s = .next (s.answered .px env s.plant { status := .badValue })) ∧
       (∀ i : Fin 64,
         (s.plant.records.get i = none ∨ (∃ r, s.plant.records.get i = some r ∧ r.state = .unreachable)) →
           exec (.excludeProbe env i.val) s = .next (s.answered .px env s.plant { status := .wrongState })) ∧
       (∀ (i : Fin 64) r, s.plant.records.get i = some r → r.state = .excluded →
         exec (.excludeProbe env i.val) s = .next (s.answered .px env s.plant { status := .ok })) ∧
       (∀ (i : Fin 64) r, s.plant.records.get i = some r → r.state ∉ [.unreachable, .excluded] →
         exec (.excludeProbe env i.val) s =
           .next
             (s.answered .px env
               { s.plant with
                 records :=
                   s.plant.records.set i (some { r with state := .excluded, heldCount := 0, candidate := none })
                 frontEnd :=
                   { s.plant.frontEnd with
                     inFlight :=
                       s.plant.frontEnd.inFlight.map fun m =>
                         { m with stale := m.stale || decide (m.entry = i ∧ m.requester ≠ .spot) } } }
               { status := .ok }))) ∧
     (s.Ready .pi →
       (∀ n, 64 ≤ n → exec (.reinstateProbe env n) s = .next (s.answered .pi env s.plant { status := .badValue })) ∧
       (∀ i : Fin 64,
         (∀ r, s.plant.records.get i = some r → r.state ∉ [.excluded, .failed]) →
           exec (.reinstateProbe env i.val) s = .next (s.answered .pi env s.plant { status := .wrongState })) ∧
       (∀ (i : Fin 64) r, s.plant.records.get i = some r → r.state ∈ [.excluded, .failed] →
         exec (.reinstateProbe env i.val) s =
           .next
             (s.answered .pi env
               { s.plant with
                 records :=
                   s.plant.records.set i
                     (some { r with state := .unseen, failStreak := 0, heldCount := 0, candidate := none }) }
               { status := .ok }))))

/-- The mux arrangement (R5): the address lines and the banks that the straps give, and the addresses that exist. And SP (R20): the
cases in their order. A taken request stands in WAITING while a measurement is in flight; with the front end free the arbiter
makes its grant in the same event among all that ask (R16 to R18, R21), as ArbiterRule says; with no pass in progress it falls on
the slot, and the measurement starts with the entry, its address on the multiplexer pins (R6), the profile of its lowest window,
and its duration (R9, R10). That a zone passed over whose due pass starts is asked again is the model's choice, log entry 37, and
the order of the members in a release and in a group's entry log entry 32. -/
def Obligations.SpotRequestRule : Prop :=
  (∀ straps : Straps,
    (straps.mxs = 0 → straps.addressLines = 6 ∧ straps.banks = 2) ∧
    (straps.mxs = 1 → straps.addressLines = 5 ∧ straps.banks = 3) ∧
    (straps.mxs = 2 ∨ straps.mxs = 3 → straps.addressLines = 4 ∧ straps.banks = 4) ∧
    ∀ (bank : Fin 4) (position : Fin 64),
      straps.addressExists bank position = true ↔
        bank.val < straps.banks ∧ position.val < 2 ^ straps.addressLines) ∧
  ∀ (s : State) (env : Envelope), s.Ready .sp → s.plant.Levelled →
    (∀ n, 64 ≤ n → exec (.spotRequest env n) s = .next (s.answered .sp env s.plant { status := .badValue })) ∧
    ∀ i : Fin 64,
      let c := s.plant.work.probes.get i
      let present := c.bank.val < s.plant.straps.banks ∧ c.position.val < 2 ^ s.plant.straps.addressLines
      let windows := s.plant.work.config.windows
      let inWindow (w : Fin 4) :=
        (windows.get w).count ≠ 0 ∧ (windows.get w).bank = c.bank.val ∧ (windows.get w).first ≤ c.position.val ∧
          c.position.val + 1 ≤ (windows.get w).first + (windows.get w).count
      (¬present → exec (.spotRequest env i.val) s = .next (s.answered .sp env s.plant { status := .badValue })) ∧
      (present → s.plant.work.config.scan.spotEnabled = false →
        exec (.spotRequest env i.val) s = .next (s.answered .sp env s.plant { status := .wrongState })) ∧
      (present → s.plant.work.config.scan.spotEnabled = true → s.plant.spot ≠ .empty →
        exec (.spotRequest env i.val) s = .next (s.answered .sp env s.plant { status := .slotBusy })) ∧
      (present → s.plant.work.config.scan.spotEnabled = true → s.plant.spot = .empty →
        s.plant.frontEnd.inFlight.isSome = true →
        exec (.spotRequest env i.val) s =
          .next (s.answered .sp env { s.plant with spot := .waiting i } { status := .ok })) ∧
      (present → s.plant.work.config.scan.spotEnabled = true → s.plant.spot = .empty →
        s.plant.frontEnd.inFlight = none →
        ∃ q : Plant, ({ s.plant with spot := .waiting i } : Plant).Granted q ∧
          exec (.spotRequest env i.val) s = .next (s.answered .sp env (settle s.plant q) { status := .ok })) ∧
      (present → s.plant.work.config.scan.spotEnabled = true → s.plant.spot = .empty →
        s.plant.frontEnd.inFlight = none → (∀ z, (s.plant.unit z).pass.progress = none) →
        ∃ (m : Measurement) (mux : BitVec 8),
          let arbiter : Arbiter :=
            { pointer := .spot
              turn := if s.plant.work.config.scan.mode = .equal then s.plant.arbiter.turn else .favoured }
          m.requester = .spot ∧ m.entry = i ∧ m.kind = c.kind ∧ m.bank = c.bank ∧ m.position = c.position ∧
          m.stale = false ∧
          mux.toNat = c.position.val + 2 ^ (s.plant.straps.addressLines + c.bank.val) ∧
          (∀ w, inWindow w → (∀ v : Fin 4, v.val < w.val → ¬inWindow v) →
            m.window = .window w ∧ m.samples = (windows.get w).samples ∧
              m.duration =
                (windows.get w).settle + (windows.get w).samples * 20 +
                  if (windows.get w).switchSettle = true ∧ s.plant.frontEnd.previous ≠ some (.window w) then 200
                  else 0) ∧
          ((∀ w, ¬inWindow w) →
            m.window = .default ∧ m.samples = s.plant.work.config.default.samples ∧
              m.duration = s.plant.work.config.default.settle + s.plant.work.config.default.samples * 20) ∧
          exec (.spotRequest env i.val) s =
            .next
              (s.answered .sp env
                { s.plant with
                  spot := .measuring i
                  arbiter := arbiter
                  mux := mux
                  frontEnd := { inFlight := some m, previous := some m.window } }
                { status := .ok }))

/-- SR (R22): EMPTY is refused, WAITING and MEASURING are answered PENDING with the entry, and DONE is answered OK with its
result and leaves the slot EMPTY. -/
def Obligations.SpotResultRule : Prop :=
  ∀ (s : State) (env : Envelope), s.Ready .sr → s.plant.Levelled →
    (s.plant.spot = .empty →
      exec (.spotResult env) s = .next (s.answered .sr env s.plant { status := .wrongState })) ∧
    (∀ i, (s.plant.spot = .waiting i ∨ s.plant.spot = .measuring i) →
      exec (.spotResult env) s =
        .next (s.answered .sr env s.plant { status := .pending, content := .spotPending i })) ∧
    ∀ r, s.plant.spot = .done r →
      exec (.spotResult env) s =
        .next (s.answered .sr env { s.plant with spot := .empty } { status := .ok, content := .spotReading r })

/-! ### Configuration writes -/

/-- CW GROUP, SCAN, WINDOW and DEFAULT (R8, R19, R103, R176): an undefined value or index is refused BAD_VALUE, a SCAN while
the spot slot is occupied WRONG_STATE; otherwise the whole item is written with its numeric fields at the nearest bound, the
answer is CLAMPED where a field moved, and the host item is queued. A SCAN that leaves FAVOR in force sets the favour turn.
That byte 0 reads as yes in hold-together, spot-enabled and switch-settle is the model's choice, log entry 9. -/
def Obligations.SmallItemWrites : Prop :=
  ∀ (s : State) (env : Envelope), s.Ready .cw → s.plant.Levelled →
    let refused (status : Status) := Host.Outcome.next (s.answered .cw env s.plant { status := status })
    let written (p : Plant) (f : Configuration → Configuration) (clamped : Bool) :=
      Host.Outcome.next
        (s.answered .cw env
          (({ p with work := { p.work with config := f p.work.config } } : Plant).enqueue (.host .configuration))
          { status := if clamped then .clamped else .ok, stores := true })
    (∀ together limit,
      (2 ≤ together → exec (.cwGroup env together limit) s = refused .badValue) ∧
      (together ≤ 1 →
        exec (.cwGroup env together limit) s =
          written s.plant
            (fun c => { c with group := { holdTogether := decide (together = 0), waitLimit := min 1440 limit } })
            (decide (1440 < limit)))) ∧
    (∀ mode favoured spot,
      (2 ≤ mode ∨ 4 ≤ favoured ∨ 2 ≤ spot → exec (.cwScan env mode favoured spot) s = refused .badValue) ∧
      (mode ≤ 1 → favoured ≤ 3 → spot ≤ 1 → s.plant.spot ≠ .empty →
        exec (.cwScan env mode favoured spot) s = refused .wrongState)) ∧
    (∀ (mode : ScanMode) (z : Zone) (spot : Bool), s.plant.spot = .empty →
      exec (.cwScan env (if mode = .equal then 0 else 1) z.code (if spot then 0 else 1)) s =
        written
          (if mode = .favor then
            { s.plant with arbiter := { pointer := s.plant.arbiter.pointer, turn := .favoured } }
          else s.plant)
          (fun c => { c with scan := { mode := mode, favoured := z, spotEnabled := spot } }) false) ∧
    (∀ w r,
      (4 ≤ w ∨ ¬r.Defined → exec (.cwWindow env w r) s = refused .badValue)) ∧
    (∀ (w : Fin 4) (r : RawWindow), r.Defined →
      (r.InRange →
        exec (.cwWindow env w.val r) s =
          written s.plant (fun c => { c with windows := c.windows.set w r.item }) false) ∧
      (¬r.InRange →
        exec (.cwWindow env w.val r) s =
          written s.plant (fun c => { c with windows := c.windows.set w r.item }) true)) ∧
    (∀ settle samples,
      (samples ∉ [1, 2, 4, 8, 16] → exec (.cwDefault env settle samples) s = refused .badValue) ∧
      (samples ∈ [1, 2, 4, 8, 16] →
        exec (.cwDefault env settle samples) s =
          written s.plant
            (fun c => { c with default := { settle := max 10 (min 2000 settle), samples := samples } })
            (decide (settle < 10 ∨ 2000 < settle))))

/-- CW KILN (R81, R91, R117, R120, R124, R176): the item is written with its numeric fields at the nearest bound. A maximum DB
with its present value changes no zone's climate; a changed one acts on every zone as R117 says, and a hold-pending zone whose
ramp it completes enters HELD and queues its checkpoint. A changed safe fan setting runs or stops the fan of each zone in SAFE,
and no other zone's. Then each zone in STARTING is evaluated under the new item. That this comes after what the new maximum and
setting do in every zone, and the order of the zones, is the model's choice, log entry 32, and so is the host item's place
after their checkpoints, log entry 39. -/
def Obligations.KilnWriteRule : Prop :=
  ∀ (s : State) (env : Envelope) (r : RawKiln), s.Ready .cw →
    let p := s.plant
    let limit := 60 * r.item.maximumDb
    let clamped (z : Zone) : ClimateState :=
      let old := (p.unit z).climate
      let formed :=
        match old.dbSetpoint, (p.ctx z).activeCopy with
        | some _, some x => old.steered x r.item.maximumDb
        | _, _ => old
      { formed with
        dbTarget := min old.dbTarget limit
        wbTarget := min old.wbTarget (min old.dbTarget limit) }
    let changed := r.item.maximumDb ≠ p.kiln.maximumDb
    (¬r.Defined → exec (.cwKiln env r) s = .next (s.answered .cw env p { status := .badValue })) ∧
    (r.Defined →
      ∃ (q q' : Plant) (status : Status) (stops : Zone → Bool),
        exec (.cwKiln env r) s =
          .next
            (s.answered .cw env (settle p (q'.enqueue (.host .configuration))) { status := status, stores := true }) ∧
        (status = .ok ∨ status = .clamped) ∧ (status = .ok ↔ r.InRange) ∧ q.StartsJudged q' ∧
        q.work = { p.work with config := { p.work.config with kiln := r.item } } ∧
        q.lines = p.lines ∧ q.groupTimeout = p.groupTimeout ∧ p.SameBeyondZones { q with work := p.work } ∧
        q.queue =
          (everyZone.foldl
            (fun x z => if stops z then x.enqueue (.checkpoint z (q.unit z).checkpoint) else x) p).queue ∧
        (¬changed → q.alerts = p.alerts) ∧
        (changed →
          ∀ a, a ∈ q.alerts ↔
            a ∈ p.alerts ∨
              ∃ z x, a = .zone z .targetClamped ∧ (p.unit z).climate.dbSetpoint.isSome = true ∧
                (p.ctx z).activeCopy = some x ∧ r.item.maximumDb < x.db) ∧
        ∀ z,
          let u := p.unit z
          let old := u.climate
          let c := clamped z
          (stops z = true ↔
            changed ∧ u.ctx.state.inPhase = true ∧ u.ctx.holdPending = true ∧ old.Away ∧ ¬c.Away) ∧
          ∃ (climate : ClimateState) (fan : FanState),
            let v : ZoneUnit := { u with climate := climate, output := { u.output with fan := fan } }
            (stops z = false → q.unit z = v) ∧
            (∀ ph, stops z = true → u.ctx.state = .phase ph → q.unit z = v.heldOver ph) ∧
            (u.ctx.state ≠ .safe ∨ r.item.safeFan = p.kiln.safeFan → fan = u.output.fan) ∧
            (u.ctx.state = .safe → r.item.safeFan ≠ p.kiln.safeFan →
              (r.item.safeFan = .stop → fan = { u.output.fan with machine := .stopped, dwellTimer := none }) ∧
              (r.item.safeFan = .run → u.output.fan.machine = .stopped → fan = u.output.fan.running) ∧
              (r.item.safeFan = .run → u.output.fan.machine ≠ .stopped → fan = u.output.fan)) ∧
            (¬changed → climate = old) ∧
            (changed →
              (u.ctx.state.inPhase = false → climate = c) ∧
              (u.ctx.state.inPhase = true →
                (old.Away → c.Away → climate = c) ∧
                (old.Away → ¬c.Away → climate = { c with rampTimer := none }) ∧
                (¬old.Away → ¬c.Away → climate = c) ∧
                (¬old.Away → ∀ d w, c.dbSetpoint = some d → c.wbSetpoint = some w → c.Away →
                  climate = c.started d w))))

/-- CW ZONE (R13, R103, R176): an undefined zone, set or flag is refused BAD_VALUE, a change of the grouped item outside IDLE
and DONE WRONG_STATE; otherwise the item is written with its numeric fields at the nearest bound, the pass timer of a zone
whose pass interval changed is restarted, and nothing else of a zone that is not in STARTING changes; one in STARTING is
evaluated under the new item (R81, R107). That byte 0 reads as yes in grouped and auto-resume is the model's choice, log entry
9. The order of the members in a group's entry is the model's choice, log entry 32, and so is the host item's place after the
checkpoints that the same CW ZONE queues, log entry 39. -/
def Obligations.ZoneItemsWriteRule : Prop :=
  ∀ (s : State) (env : Envelope) (z : Zone) (r : RawZone), s.Ready .cw →
    (∀ n, 4 ≤ n ∨ ¬r.Defined →
      exec (.cwZone env n r) s = .next (s.answered .cw env s.plant { status := .badValue })) ∧
    (r.Defined → r.item.grouped ≠ (s.plant.work.config.zones.get z).grouped →
      (s.plant.ctx z).state ≠ .idle → (s.plant.ctx z).state ≠ .done →
      exec (.cwZone env z.code r) s = .next (s.answered .cw env s.plant { status := .wrongState })) ∧
    (r.Defined →
      (r.item.grouped = (s.plant.work.config.zones.get z).grouped ∨ (s.plant.ctx z).state = .idle ∨
        (s.plant.ctx z).state = .done) →
      let written : Plant :=
        ({ s.plant with
            work :=
              { s.plant.work with
                config :=
                  { s.plant.work.config with zones := s.plant.work.config.zones.set z r.item } } } : Plant).put z
          (if r.item.passInterval = (s.plant.work.config.zones.get z).passInterval then s.plant.unit z
          else
            { s.plant.unit z with
              pass := { (s.plant.unit z).pass with timer := some (r.item.passInterval * 60000) } })
      ∃ (status : Status) (q : Plant),
        (status = .ok ∨ status = .clamped) ∧ (status = .ok ↔ r.InRange) ∧
        ((s.plant.ctx z).state ≠ .starting → q = written) ∧
        ((s.plant.ctx z).state = .starting → written.StartJudged q z) ∧
        exec (.cwZone env z.code r) s =
          .next
            (s.answered .cw env (settle s.plant (q.enqueue (.host .configuration)))
              { status := status, stores := true }))

/-- CW LINE (R146, R148, R149, R150, R176): an undefined value is refused BAD_VALUE; a change of role, zone, polarity or
debounce code that touches a DOOR, FAN_PROOF or HOLD_IN role is refused WRONG_STATE while a zone is in STARTING or watched; a
write of the safe level and keep alone changes these alone. A performed change makes the latch INACTIVE and the debounced level
leave, and starts the settling of a line that is now an input, which with debounce code 0 takes its level at once. Neither the
level that leaves nor the one that is taken changes anything else: a door, proof or hold role is changed only while every zone
is at rest, and a START_BUTTON is not pressed by either. An output line counts as settled, the model's reading, log entry 19,
and byte 0 reads as ACTIVE and as yes, log entry 9. -/
def Obligations.LineItemsWriteRule : Prop :=
  ∀ (s : State) (env : Envelope) (i : Fin 16) (c : LineConfig) (debounce : Nat), s.Ready .cw →
    c.debounce = min 7 debounce →
    let old := s.plant.work.config.lines.get i
    let same := old.role = c.role ∧ old.zone = c.zone ∧ old.polarity = c.polarity ∧ old.debounce = c.debounce
    let touches := old.role ∈ [.door, .fanProof, .holdIn] ∨ c.role ∈ [.door, .fanProof, .holdIn]
    let someRuns := ∃ z, (s.plant.ctx z).state.guards = true
    let answer : Answer := { status := if 7 < debounce then .clamped else .ok, stores := true }
    let written : Plant :=
      { s.plant with
        work :=
          { s.plant.work with
            config := { s.plant.work.config with lines := s.plant.work.config.lines.set i c } } }
    let line := s.plant.lines.get i
    let turned (l : LineState) :=
      Host.Outcome.next
        (s.answered .cw env
          (settle s.plant
            (({ written with lines := s.plant.lines.set i l } : Plant).enqueue (.host .configuration)))
          answer)
    (∀ n (r : RawLine), 16 ≤ n ∨ ¬r.Defined →
      exec (.cwLine env n r) s = .next (s.answered .cw env s.plant { status := .badValue })) ∧
    (touches → ¬same → someRuns →
      exec (.cwLine env i.val (c.raw debounce)) s = .next (s.answered .cw env s.plant { status := .wrongState })) ∧
    (same →
      exec (.cwLine env i.val (c.raw debounce)) s =
        .next (s.answered .cw env (settle s.plant (written.enqueue (.host .configuration))) answer)) ∧
    (¬same → ¬(touches ∧ someRuns) →
      (c.role ∈ [.alarmOut, .generalOut] →
        exec (.cwLine env i.val (c.raw debounce)) s =
          turned { line with latch := false, debounced := false, settled := false, timer := none }) ∧
      (c.role ∉ [.alarmOut, .generalOut] → c.debounce ≠ 0 →
        ∃ t, ([0, 10, 20, 50, 100, 200, 500, 1000] : List Nat)[c.debounce]? = some t ∧
          exec (.cwLine env i.val (c.raw debounce)) s =
            turned { line with latch := false, debounced := false, settled := false, timer := some t }) ∧
      (c.role ∉ [.alarmOut, .generalOut] → c.debounce = 0 →
        exec (.cwLine env i.val (c.raw debounce)) s =
          turned
            { line with
              latch := false
              debounced := line.external == (c.polarity == .activeHigh)
              settled := true
              timer := none }))

/-! ### Requests on zones -/

/-- GO of an ungrouped zone (R77, R79, R81 to R83, R91, R138): the checks in their order; a start whose conditions are not all met
leaves the zone in STARTING with its timeout running and its fan started; one whose conditions are met enters the first phase in
the same event, and where a hold line is active or an interlock condition stands, HELD or SAFE over it (R90, R91, R138). -/
def Obligations.StartZoneRule : Prop :=
  ∀ (s : State) (env : Envelope) (z : Zone), s.Ready .go →
    let p := s.plant
    let u := p.unit z
    let items := p.work.config.zones.get z
    let refused (a : Answer) := Host.Outcome.next (s.answered .go env p a)
    let limit := p.kiln.maximumDb + p.kiln.overtempMargin
    let met :=
      (items.preconditions.door = true → p.doorOpen = false) ∧ (items.preconditions.fan = true → p.proof z = true) ∧
        (items.preconditions.probes = true → items.nmin ≤ u.aggregate.count) ∧ u.climate.db.status = .good ∧
        u.climate.wb.status = .good ∧ ∃ x, u.climate.db.value = some x ∧ x ≤ limit
    let begun (timeout : Timer) : ZoneContext :=
      { u.ctx with
        state := .starting
        underlying := none
        holds := { host := false, line := false }
        holdPending := false
        stepIndex := none
        activeCopy := none
        stepClock := 0
        runClock := 0
        eligible := none
        waiting := false
        waitCount := 0
        detached := false
        startTimeout := timeout
        startSource := .host
        ready := false
        checkpointCount := 0
        lastFailure := none
        runRecord := []
        dropped := 0 }
    (∀ n, 4 ≤ n → exec (.startZone env n) s = refused { status := .badValue }) ∧
    (p.fieldEnabled = false ∨ items.startMask.host = false ∨ u.ctx.state ≠ .idle →
      exec (.startZone env z.code) s = refused { status := .wrongState }) ∧
    (p.fieldEnabled = true → items.startMask.host = true → u.ctx.state = .idle →
      (∀ f, p.validate z = some f →
        exec (.startZone env z.code) s = refused { status := .badSchedule, content := .finding f }) ∧
      (p.validate z = none → items.grouped = false →
        (∃ q : Plant,
          (p.put z
            { u with
              ctx := begun (some (p.kiln.startTimeout * 60000))
              output := { u.output with fan := u.output.fan.running } }).StartJudged q z ∧
          exec (.startZone env z.code) s = .next (s.answered .go env (settle p q) { status := .ok })) ∧
        (¬met →
          exec (.startZone env z.code) s =
            .next
              (s.answered .go env
                (settle p
                  (p.put z
                    { u with
                      ctx := begun (some (p.kiln.startTimeout * 60000))
                      output := { u.output with fan := u.output.fan.running } }))
                { status := .ok })) ∧
        (met → p.doorOpen = false → p.holdIn = false → u.proofOverdue = false → u.causes.any = false →
          ∀ (ph : Phase) (i : Fin 128) (x : StepRecord),
            (∀ y : Phase, y.code < ph.code → (p.work.entries.get z).get y = none) →
            (p.work.entries.get z).get ph = some i → p.work.records.get i = some x →
            let v : ZoneUnit :=
              { u with
                ctx :=
                  { begun none with
                    state := .phase ph
                    stepIndex := some i
                    activeCopy := some x
                    minuteTimer := some 60000
                    runRecord :=
                      [{ kind := .started, minute := 0, step := some i, reason := none, cmc := u.aggregate.cmc,
                          dmc := u.aggregate.dmc }] }
                climate :=
                  ((u.climate.measured p.kiln.maximumDb).steered x p.kiln.maximumDb).started
                    (min x.db p.kiln.maximumDb) (min x.db p.kiln.maximumDb - x.depression)
                output :=
                  { u.output with fan := { u.output.fan.running with interval := x.fanInterval } } }
            exec (.startZone env z.code) s =
              .next
                (s.answered .go env
                  (settle p
                    ((((p.raiseIf (decide (p.kiln.maximumDb < x.db)) (.zone z .targetClamped)).raise
                        (.zone z .phaseChanged)).put z v).enqueue (.checkpoint z v.checkpoint)))
                  { status := .ok }))))

/-- HD of a zone that has no group to reach, and HD ALL (R90, R91, R109): HOST joins the hold-cause set of a running zone; from an
empty set the zone enters HELD at once, or is hold-pending while its ramp is in flight; HD ALL does this to every running zone,
whichever run, to no other, and is OK even where none runs. The release is judged on what the request leaves (R111). That HD ALL
queues the checkpoints in the order A to D is the model's choice, log entry 32. -/
def Obligations.HoldRule : Prop :=
  ∀ (s : State) (env : Envelope), s.Ready .hd →
    let p := s.plant
    let hosted (z : Zone) : ZoneUnit :=
      { p.unit z with ctx := { p.ctx z with holds := { host := true, line := (p.ctx z).holds.line } } }
    let pending (z : Zone) : ZoneUnit :=
      { hosted z with
        ctx := { (hosted z).ctx with holdPending := true, eligible := none, waiting := false, waitCount := 0 } }
    let leaves (target : Nat) (x : Plant) :=
      ∃ q : Plant, x.Released q ∧
        exec (.hold env target) s = .next (s.answered .hd env (settle p q) { status := .ok })
    let enters (z : Zone) (ph : Phase) :=
      (p.ctx z).state = .phase ph ∧ (p.ctx z).holds.any = false ∧ ¬(p.unit z).climate.Away
    let alone (z : Zone) :=
      p.work.config.group.holdTogether = false ∨ (p.work.config.zones.get z).grouped = false
    (∀ n, 5 ≤ n → exec (.hold env n) s = .next (s.answered .hd env p { status := .badValue })) ∧
    (∀ z : Zone,
      ((p.ctx z).state ≠ .held → (p.ctx z).state.phase? = none →
        exec (.hold env z.code) s = .next (s.answered .hd env p { status := .wrongState })) ∧
      ((p.ctx z).state = .held → alone z → leaves z.code (p.put z (hosted z))) ∧
      (∀ ph, (p.ctx z).state = .phase ph → alone z →
        ((p.ctx z).holds.any = true → leaves z.code (p.put z (hosted z))) ∧
        ((p.ctx z).holds.any = false → (p.unit z).climate.Away → leaves z.code (p.put z (pending z))) ∧
        ((p.ctx z).holds.any = false → ¬(p.unit z).climate.Away →
          leaves z.code
            ((p.put z ((hosted z).heldOver ph)).enqueue (.checkpoint z ((hosted z).heldOver ph).checkpoint))))) ∧
    ∀ (unit : Zone → ZoneUnit) (stops : Zone → Bool),
      (∀ z,
        (stops z = true ↔ ∃ ph, enters z ph) ∧
        ((p.ctx z).state ≠ .held → (p.ctx z).state.phase? = none → unit z = p.unit z) ∧
        ((p.ctx z).state = .held → unit z = hosted z) ∧
        (∀ ph, (p.ctx z).state = .phase ph →
          ((p.ctx z).holds.any = true → unit z = hosted z) ∧
          ((p.ctx z).holds.any = false → (p.unit z).climate.Away → unit z = pending z) ∧
          (enters z ph → unit z = (hosted z).heldOver ph))) →
      leaves 4
        (everyZone.foldl (fun q z => if stops z then q.enqueue (.checkpoint z (unit z).checkpoint) else q)
          { p with zones := PerZone.tabulate unit })

/-- RM of a zone that has no group to reach (R92, R109): refused while the field is disabled and in IDLE, STARTING, SAFE and
DONE. HOST leaves the set of a zone in HELD or hold-pending; while LINE stays the zone stays; from an empty set the zone
returns to its phase with a ramp from the targets as they stand, or is hold-pending no longer, and is evaluated. A phase state
without hold-pending is answered OK and unchanged. The release is judged on what the request leaves (R111). In RESUME_PENDING a
finding of the checkpoint's validation, which WalkAndValidationRule states, is answered (R67, with log entries 13 and 36). That
the ramp of a return starts before the zone is evaluated, log entry 21, that an advance within the phase in such an event raises
STEP_ADVANCED, log entry 15, and the order of the members in a release, log entry 32, are the model's reading. -/
def Obligations.ResumeRule : Prop :=
  ∀ (s : State) (env : Envelope) (z : Zone), s.Ready .rm →
    let p := s.plant
    let u := p.unit z
    (∀ n, 4 ≤ n → exec (.resume env n) s = .next (s.answered .rm env p { status := .badValue })) ∧
    (p.fieldEnabled = false ∨ u.ctx.state ∈ [.idle, .starting, .safe, .done] →
      exec (.resume env z.code) s = .next (s.answered .rm env p { status := .wrongState })) ∧
    (p.fieldEnabled = true → u.ctx.state = .resumePending → ∀ f, p.validateResume z (u.ctx.resumeFrom.getD {}) = some f →
      exec (.resume env z.code) s =
        .next (s.answered .rm env p { status := .badSchedule, content := .finding f })) ∧
    (p.fieldEnabled = true → u.ctx.state = .held ∨ u.ctx.state.inPhase = true →
      p.work.config.group.holdTogether = false ∨ (p.work.config.zones.get z).grouped = false →
      ∃ r q : Plant,
        exec (.resume env z.code) s = .next (s.answered .rm env (settle p q) { status := .ok }) ∧ r.Released q ∧
        (u.ctx.state = .held ∨ u.ctx.holdPending = true →
          p.HoldLeft r z { host := false, line := u.ctx.holds.line }) ∧
        (u.ctx.state.inPhase = true → u.ctx.holdPending = false → r = p))

/-- RM of a zone in RESUME_PENDING whose validation finds nothing (R166): the run is taken up at the checkpoint's step with a
RESTARTED entry and a fresh checkpoint, HOST in its hold-cause set where the checkpoint says so and LINE where a hold line is
active. A recorded HELD is HELD. A recorded phase state whose set is empty goes on in its phase; one whose set is not empty is
hold-pending while its ramp is in flight, and otherwise enters HELD in the event with a HELD entry and a second checkpoint
(R91). Nothing of the run has been lost but the ramp, which starts anew from measured values. Where an interlock condition then
stands, the zone enters SAFE over the recorded phase with the causes that stand (R138, R139); where none does, it is evaluated.
The release is judged on what is left (R86, R111). That a zone found eligible in this event raises STEP_ADVANCED or
PHASE_CHANGED by its step entry, compared with the phase it has been taken up in, though R166 raises neither at a resumption,
is the model's reading, log entry 44. The order of the members in a release is the model's choice, log entry 32. -/
def Obligations.ResumptionRule : Prop :=
  ∀ (s : State) (env : Envelope) (z : Zone) (k : Checkpoint) (ph : Phase) (i : Fin 128) (x : StepRecord),
    s.Ready .rm →
    let p := s.plant
    let u := p.unit z
    p.fieldEnabled = true → u.ctx.state = .resumePending → u.ctx.resumeFrom = some k →
    p.validateResume z k = none → k.step = some i → p.work.records.get i = some x → u.causes.any = false →
    let fan : FanState := { u.output.fan with direction := k.direction }
    let climate := (u.climate.measured p.kiln.maximumDb).steered x p.kiln.maximumDb
    let v (state : ZoneState) (under : Option Phase) (host : Bool) (climate : ClimateState) : ZoneUnit :=
      { u with
        ctx :=
          { u.ctx.gain
              { kind := .restarted, minute := k.runClock, step := some i, reason := none, cmc := u.aggregate.cmc,
                dmc := u.aggregate.dmc } with
            state := state
            underlying := under
            holds := { host := host, line := p.holdIn }
            holdPending := false
            stepIndex := some i
            activeCopy := some x
            stepClock := k.stepClock
            runClock := k.runClock
            eligible := none
            waiting := false
            waitCount := 0
            detached := k.detached
            checkpointCount := 0
            minuteTimer := some 60000
            resumeFrom := none }
        climate := climate
        output := { u.output with fan := { fan.running with interval := x.fanInterval } } }
    let leaves (x : Plant) :=
      ∃ q : Plant, x.Released q ∧
        exec (.resume env z.code) s = .next (s.answered .rm env (settle p q) { status := .ok })
    let taken (w : ZoneUnit) : Plant :=
      ((p.raiseIf (decide (p.kiln.maximumDb < x.db)) (.zone z .targetClamped)).put z w).enqueue
        (.checkpoint z w.checkpoint)
    let ramped := climate.started (min x.db p.kiln.maximumDb) (min x.db p.kiln.maximumDb - x.depression)
    let judged (t : Plant) :=
      ∀ causes, t.Stand z causes →
        (causes.any = true → ∃ r : Plant, t.Secured r z causes ∧ leaves r) ∧
        (causes.any = false → ∃ r : Plant, t.StepJudged r z ∧ leaves r)
    (k.recorded = .held ph → judged (taken (v .held (some ph) true climate))) ∧
    (k.recorded = .phase ph → k.hostHold = false → p.holdIn = false → judged (taken (v (.phase ph) none false ramped))) ∧
    (k.recorded = .phase ph → k.hostHold = true ∨ p.holdIn = true →
      let w := v (.phase ph) none k.hostHold ramped
      (ramped.Away → judged (taken { w with ctx := { w.ctx with holdPending := true } })) ∧
      (¬ramped.Away →
        judged (((taken w).put z (w.heldOver ph)).enqueue (.checkpoint z (w.heldOver ph).checkpoint))))

/-- SK (R87, R88, R93, R110, R111): a zone in a phase state that is not hold-pending advances with reason SKIPPED: STEP_LEFT,
and then step entry at the following record of the walk or of the next phase that has an entry, with the dwell that its
interval may begin (R125), or DONE. A member of the lockstep set waits instead with that reason, its wait count from 0 unless
it waits already. The release is judged on what the request leaves. In every other state, and hold-pending, SK is refused. The
order of the members in a release is the model's choice, log entry 32. -/
def Obligations.SkipRule : Prop :=
  ∀ (s : State) (env : Envelope) (z : Zone), s.Ready .sk →
    let p := s.plant
    let u := p.unit z
    (∀ n, 4 ≤ n → exec (.skip env n) s = .next (s.answered .sk env p { status := .badValue })) ∧
    (u.ctx.state.phase? = none ∨ u.ctx.holdPending = true →
      exec (.skip env z.code) s = .next (s.answered .sk env p { status := .wrongState })) ∧
    (u.ctx.state.inPhase = true → u.ctx.holdPending = false →
      ∃ r q : Plant,
        exec (.skip env z.code) s = .next (s.answered .sk env (settle p q) { status := .ok }) ∧ r.Released q ∧
        (¬p.InStep z → p.Advances r z .skipped) ∧
        (p.InStep z →
          r =
            p.put z
              { u with
                ctx :=
                  { u.ctx with
                    eligible := some .skipped
                    waiting := true
                    waitCount := if u.ctx.waiting then u.ctx.waitCount else 0 } }))

/-- AB (R94, R107, R111): a start or a pending resumption goes to IDLE; a run in SAFE or in COOLDOWN goes to IDLE with an
ABORTED entry; any other run goes to COOLDOWN, where a dwell begins if the new interval makes a reversal of its fan due (R125);
IDLE and DONE refuse it. On what a run leaves the release is judged, and on what a start leaves the group. That a run whose
COOLDOWN has no entry, which validation rules out, goes to IDLE is the model's choice, log entry 35. CL (R75, R89): a zone in
DONE enters IDLE and queues its checkpoint; in every other state CL is refused. The order of the members in a release and in a
group's entry is the model's choice, log entry 32. -/
def Obligations.AbortAndClearRule : Prop :=
  (∀ (s : State) (env : Envelope) (z : Zone), s.Ready .ab →
     let p := s.plant
     let u := p.unit z
     let answers (q : Plant) :=
       exec (.abort env z.code) s = .next (s.answered .ab env (settle p q) { status := .ok })
     let leaves (x : Plant) := ∃ q : Plant, x.Released q ∧ answers q
     let gone (v : ZoneUnit) : Plant := (p.put z v.idled).enqueue (.checkpoint z v.idled.checkpoint)
     let noted : ZoneUnit := { u with ctx := u.ctx.gain (u.event .aborted none) }
     let standing (ph : Phase) := u.ctx.state = .phase ph ∨ (u.ctx.state = .held ∧ u.ctx.underlying = some ph)
     (∀ n, 4 ≤ n → exec (.abort env n) s = .next (s.answered .ab env p { status := .badValue })) ∧
     (u.ctx.state = .idle ∨ u.ctx.state = .done →
       exec (.abort env z.code) s = .next (s.answered .ab env p { status := .wrongState })) ∧
     (u.ctx.state = .starting → ∃ q : Plant, (gone u).GroupJudged q ∧ answers q) ∧
     (u.ctx.state = .resumePending → answers (gone u)) ∧
     (u.ctx.state = .safe ∨ standing .cooldown → leaves (gone noted)) ∧
     (∀ ph, standing ph → ph ≠ .cooldown →
       ((p.work.entries.get z).cooldown = none → leaves (gone noted)) ∧
       ∀ (i : Fin 128) (x : StepRecord),
         (p.work.entries.get z).cooldown = some i → p.work.records.get i = some x →
         let v :=
           ({ noted with
               ctx :=
                 { noted.ctx with
                   holds := { host := false, line := false }
                   holdPending := false } } : ZoneUnit).stepped .cooldown i x p.kiln.maximumDb
             (p.work.config.zones.get z).dwell
         leaves
           ((((p.raiseIf (decide (p.kiln.maximumDb < x.db)) (.zone z .targetClamped)).raise
               (.zone z .phaseChanged)).put z v).enqueue (.checkpoint z v.checkpoint)))) ∧
  (∀ (s : State) (env : Envelope) (z : Zone), s.Ready .cl →
     let u := s.plant.unit z
     (∀ n, 4 ≤ n → exec (.clearDone env n) s = .next (s.answered .cl env s.plant { status := .badValue })) ∧
     (u.ctx.state ≠ .done →
       exec (.clearDone env z.code) s = .next (s.answered .cl env s.plant { status := .wrongState })) ∧
     (u.ctx.state = .done →
       exec (.clearDone env z.code) s =
         .next
           (s.answered .cl env
             (settle s.plant ((s.plant.put z u.idled).enqueue (.checkpoint z u.idled.checkpoint))) { status := .ok })))

/-- RL (R69, R70, R86, R110, R111): refused outside the phase states and HELD; otherwise the active step copy is the record as
it stands, with its setpoints, ramp rate and reversal interval. In HELD the targets stay where they are; in a phase state a
ramp starts from them, and the zone is evaluated on its new copy; a hold-pending zone whose ramp the new copy completes enters
HELD (R91, R120). Where the new interval makes a reversal of the fan due, a dwell begins and the time-proportioned outputs are
off (R125). The release is judged on what the request leaves. That the new ramp starts before the zone is evaluated, log entry
21, and the order of the members in a release, log entry 32, are the model's reading. -/
def Obligations.ReloadRule : Prop :=
  ∀ (s : State) (env : Envelope) (z : Zone) (i : Fin 128) (x : StepRecord), s.Ready .rl →
    let p := s.plant
    let u := p.unit z
    let v (climate : ClimateState) : ZoneUnit :=
      { u with
        ctx := { u.ctx with activeCopy := some x }
        climate := climate
        output := u.output.turned x.fanInterval (p.work.config.zones.get z).dwell }
    let alerted := p.raiseIf (decide (p.kiln.maximumDb < x.db)) (.zone z .targetClamped)
    let leaves (r : Plant) :=
      ∃ q : Plant, r.Released q ∧
        exec (.reloadStep env z.code) s = .next (s.answered .rl env (settle p q) { status := .ok })
    let climate := u.climate.steered x p.kiln.maximumDb
    let ramped := climate.started (min x.db p.kiln.maximumDb) (min x.db p.kiln.maximumDb - x.depression)
    (∀ n, 4 ≤ n → exec (.reloadStep env n) s = .next (s.answered .rl env p { status := .badValue })) ∧
    (u.ctx.state ≠ .held → u.ctx.state.phase? = none →
      exec (.reloadStep env z.code) s = .next (s.answered .rl env p { status := .wrongState })) ∧
    (u.ctx.stepIndex = some i → p.work.records.get i = some x →
      (u.ctx.state = .held → leaves (alerted.put z (v climate))) ∧
      (u.ctx.state.inPhase = true → u.ctx.holdPending = false →
        ∃ r : Plant, (alerted.put z (v ramped)).StepJudged r z ∧ leaves r) ∧
      (∀ ph, u.ctx.state = .phase ph → u.ctx.holdPending = true →
        (ramped.Away → leaves (alerted.put z (v ramped))) ∧
        (u.climate.Away → ¬ramped.Away →
          let w := (v ramped).heldOver ph
          leaves ((alerted.put z w).enqueue (.checkpoint z w.checkpoint)))))

/-- RV (R140, R141): refused outside SAFE, and while OVERTEMP stands and the dry bulb is not known to be at or below the
maximum; otherwise FAN and OVERTEMP leave the set, the zone leaves SAFE for HELD where nothing is left, the remaining set is
answered, and after a FAN cause the proof timer starts afresh where the fan should run. That it does not where OVERTEMP alone
left, log entry 40, that HOST joins the hold-cause set of a zone that a cause has left while others stay (R142), log entry 31,
and that a refusal carries its status alone, log entry 43, are the model's reading. -/
def Obligations.RecoverRule : Prop :=
  ∀ (s : State) (env : Envelope) (z : Zone), s.Ready .rv →
    let p := s.plant
    let u := p.unit z
    let blocked :=
      u.causes.overtemp = true ∧
        ¬∃ x, u.climate.db.status = .good ∧ u.climate.db.value = some x ∧ x ≤ p.kiln.maximumDb
    let left : SafeCauses := { u.causes with fan := false, overtemp := false }
    let freed := u.released p.kiln.maximumDb p.holdIn
    let q : Plant :=
      if left.any = true then p.put z (u.stillSafe left)
      else (p.put z freed).enqueue (.checkpoint z freed.checkpoint)
    (∀ n, 4 ≤ n → exec (.recover env n) s = .next (s.answered .rv env p { status := .badValue })) ∧
    (u.ctx.state ≠ .safe ∨ blocked →
      exec (.recover env z.code) s = .next (s.answered .rv env p { status := .wrongState })) ∧
    (u.ctx.state = .safe → ¬blocked →
      (u.causes.fan = false →
        exec (.recover env z.code) s =
          .next (s.answered .rv env (settle p q) { status := .ok, content := .causes left })) ∧
      (u.causes.fan = true →
        let v := q.unit z
        exec (.recover env z.code) s =
          .next
            (s.answered .rv env
              (settle p
                (q.put z
                  { v with
                    proofOverdue := false
                    output :=
                      { v.output with
                        proofTimer :=
                          if q.shouldRun z = true then some ((p.work.config.zones.get z).proofDelay * 1000)
                          else v.output.proofTimer } }))
              { status := .ok, content := .causes left })))

/-- DS with minutes, DS CANCEL and DELAYED_START_EXPIRY (R78, R80, R85, R105 to R107): 1 to 10080 minutes start the timer anew,
any other number is refused, and CANCEL stops it; the remaining minutes are answered. At the expiry the timer stops; each IDLE
zone that is no member and has TIMER in its start mask is started, or fails its start where the field is disabled or its schedule
has a finding; where an IDLE member has TIMER in its mask, one group start from TIMER is taken. That the zones that are no members
come first is the model's choice, log entry 32. -/
def Obligations.DelayedStartRule : Prop :=
  (∀ (s : State) (env : Envelope), s.Ready .ds → s.plant.Levelled →
     (∀ m, (1 ≤ m ∧ m ≤ 10080) →
       exec (.delayedStartMinutes env m) s =
         .next
           (s.answered .ds env { s.plant with delayedStart := some (m * 60000) }
             { status := .ok, content := .delayLeft (some m) })) ∧
     (∀ m, (m = 0 ∨ 10080 < m) →
       exec (.delayedStartMinutes env m) s = .next (s.answered .ds env s.plant { status := .badValue })) ∧
     exec (.delayedStartCancel env) s =
       .next
         (s.answered .ds env { s.plant with delayedStart := none } { status := .ok, content := .delayLeft none })) ∧
  (∀ s : State, s.mode = .running → s.plant.delayedStart.isSome = true →
     let p := s.plant
     let timed (z : Zone) := (p.ctx z).state = .idle ∧ (p.work.config.zones.get z).startMask.timer = true
     let grouped (z : Zone) := (p.work.config.zones.get z).grouped = true
     ∃ q : Plant, exec .delayedStartExpiry s = .next (s.moved q) ∧ q.delayedStart = none ∧
       p.SameBeyondZones { q with delayedStart := p.delayedStart } ∧
       ({ p with delayedStart := none } : Plant).EventStarted q .timer StartMask.timer ∧
       ∀ z,
         (¬timed z → ¬grouped z → q.unit z = p.unit z) ∧
         (timed z → p.fieldEnabled = false →
           q.unit z = (p.unit z).failed .timer .fieldDisabled none ∧ .zone z .startFailed ∈ q.alerts) ∧
         (∀ f, timed z → p.fieldEnabled = true → p.validate z = some f →
           q.unit z = (p.unit z).failed .timer .badSchedule (some f) ∧ .zone z .startFailed ∈ q.alerts) ∧
         (timed z → p.fieldEnabled = true → p.validate z = none →
           (q.ctx z).state ≠ .idle ∧ (q.ctx z).startSource = .timer ∧ (q.ctx z).lastFailure = none ∧
             (q.ctx z).runClock = 0 ∧ (q.ctx z).dropped = 0))

/-! ### Requests on outputs, field and lines -/

/-- OV, OR and RF (R127, R128): undefined operands are refused BAD_VALUE and SPRAY and VENT both ON a CONFLICT; otherwise the
entry is written and the lapse timer starts with the override timeout. OR makes the entry AUTO and stops the timer where no
override is left; RF starts the timer again where one stands. OR and RF answer the remaining minutes. Minutes begun count as
whole, the model's reading, log entry 25. -/
def Obligations.OverrideRequests : Prop :=
  ∀ (s : State) (env : Envelope) (z : Zone) (o : Fin 5),
    let p := s.plant
    let u := p.unit z
    let t := u.output.overrides
    let entry (e : OverrideEntry) : OverrideTable :=
      match o with
      | 0 => { t with heat := e }
      | 1 => { t with spray := e }
      | 2 => { t with vent := e }
      | 3 => { t with fanRun := e }
      | 4 => { t with fanDir := e }
    let withEntry (e : OverrideEntry) : Plant := p.put z { u with output := { u.output with overrides := entry e } }
    let stands (q : Plant) :=
      ∃ y, ¬((q.unit y).output.overrides.heat = .auto ∧ (q.unit y).output.overrides.spray = .auto ∧
        (q.unit y).output.overrides.vent = .auto ∧ (q.unit y).output.overrides.fanRun = .auto ∧
        (q.unit y).output.overrides.fanDir = .auto)
    let minutes (t : Timer) : Option Nat := t.map fun ms => (ms + 59999) / 60000
    let restarted : Timer := some (p.kiln.overrideTimeout * 60000)
    (s.Ready .ov →
      (∀ y n v, 4 ≤ y ∨ 5 ≤ n ∨ v = 0 ∨ 3 ≤ v →
        exec (.override env y n v) s = .next (s.answered .ov env p { status := .badValue })) ∧
      ((o = 1 ∧ t.vent = .on) ∨ (o = 2 ∧ t.spray = .on) →
        exec (.override env z.code o.val 1) s = .next (s.answered .ov env p { status := .conflict })) ∧
      (¬((o = 1 ∧ t.vent = .on) ∨ (o = 2 ∧ t.spray = .on)) →
        exec (.override env z.code o.val 1) s =
          .next (s.answered .ov env (settle p { withEntry .on with lapse := restarted }) { status := .ok })) ∧
      exec (.override env z.code o.val 2) s =
        .next (s.answered .ov env (settle p { withEntry .off with lapse := restarted }) { status := .ok })) ∧
    (s.Ready .or →
      (∀ y n, 4 ≤ y ∨ 5 ≤ n →
        exec (.releaseOverride env y n) s = .next (s.answered .or env p { status := .badValue })) ∧
      (stands (withEntry .auto) →
        exec (.releaseOverride env z.code o.val) s =
          .next
            (s.answered .or env (settle p (withEntry .auto))
              { status := .ok, content := .lapseLeft (minutes p.lapse) })) ∧
      (¬stands (withEntry .auto) →
        exec (.releaseOverride env z.code o.val) s =
          .next
            (s.answered .or env (settle p { withEntry .auto with lapse := none })
              { status := .ok, content := .lapseLeft none }))) ∧
    (s.Ready .rf → p.Levelled →
      (stands p →
        exec (.refreshOverrides env) s =
          .next
            (s.answered .rf env { p with lapse := restarted }
              { status := .ok, content := .lapseLeft (minutes restarted) })) ∧
      (¬stands p →
        exec (.refreshOverrides env) s =
          .next (s.answered .rf env p { status := .ok, content := .lapseLeft (minutes p.lapse) })))

/-- FE and FD (R130, R167): a request for the state that stands is OK and changes nothing; FD is refused while a zone is in
STARTING or watched and cuts every automatic level; FE enables the field and takes up the run of each zone in RESUME_PENDING
with auto-resume, and of no other, in the order A to D: one whose validation has a finding stays as it was with RESUME_WAITING,
and every other one is resumed as RM would resume it, with the alert of an advance in that event as log entry 44 reads it. That
the release is judged after each is the model's choice, log entry 33. LW (R152): a mask that names a line that is no output is
refused whole; otherwise each masked latch takes its value, the other latches and every level applied from outside stay, and
the sixteen latches are answered; that a refusal carries its status alone is the model's reading, log entry 43. The order of
the members in a release is its choice, log entry 32. -/
def Obligations.FieldAndLineModifyRule : Prop :=
  (∀ (s : State) (env : Envelope),
     (s.Ready .fe →
       (s.plant.fieldEnabled = true →
         exec (.fieldEnable env) s = .next (s.answered .fe env s.plant { status := .ok })) ∧
       (s.plant.fieldEnabled = false →
         (∀ z, (s.plant.ctx z).state = .resumePending → (s.plant.work.config.zones.get z).autoResume = false) →
         exec (.fieldEnable env) s =
           .next (s.answered .fe env (settle s.plant { s.plant with fieldEnabled := true }) { status := .ok })) ∧
       (s.plant.fieldEnabled = false →
         let p := s.plant
         let auto (z : Zone) :=
           (p.ctx z).state = .resumePending ∧ (p.work.config.zones.get z).autoResume = true
         let finding (z : Zone) := p.validateResume z ((p.ctx z).resumeFrom.getD {})
         ∃ q : Plant,
           exec (.fieldEnable env) s = .next (s.answered .fe env (settle p q) { status := .ok }) ∧
           ({ p with fieldEnabled := true } : Plant).SameBeyondZones q ∧
           Plant.Chain
             (fun z r r' =>
               (¬auto z → r' = r) ∧ (auto z → finding z ≠ none → r' = r.raise (.zone z .resumeWaiting)) ∧
                 (auto z → finding z = none →
                   exec (.resume env z.code) { s with plant := r } =
                     .next (State.answered { s with plant := r } .rm env (settle r r') { status := .ok })))
             everyZone { p with fieldEnabled := true } q)) ∧
     (s.Ready .fd →
       ((∃ z, (s.plant.ctx z).state.guards = true) →
         exec (.fieldDisable env) s = .next (s.answered .fd env s.plant { status := .wrongState })) ∧
       ((∀ z, (s.plant.ctx z).state ∈ [.idle, .done, .resumePending]) →
         (s.plant.fieldEnabled = false →
           exec (.fieldDisable env) s = .next (s.answered .fd env s.plant { status := .ok })) ∧
         (s.plant.fieldEnabled = true →
           exec (.fieldDisable env) s =
             .next
               (s.answered .fd env
                 (settle s.plant
                   { s.plant with
                     fieldEnabled := false
                     zones :=
                       PerZone.tabulate fun z =>
                         { s.plant.unit z with output := (s.plant.unit z).output.off } })
                 { status := .ok }))))) ∧
  (∀ (s : State) (env : Envelope) (mask values : Nat), s.Ready .lw →
     let output (i : Fin 16) :=
       (s.plant.work.config.lines.get i).role = .alarmOut ∨ (s.plant.work.config.lines.get i).role = .generalOut
     ((∃ i : Fin 16, mask.testBit i.val = true ∧ ¬output i) →
       exec (.lineModify env mask values) s = .next (s.answered .lw env s.plant { status := .badValue })) ∧
     ((∀ i : Fin 16, mask.testBit i.val = true → output i) →
       ∃ (lines : Table 16 LineState) (latches : Table 16 Bool),
         exec (.lineModify env mask values) s =
           .next
             (s.answered .lw env (settle s.plant { s.plant with lines := lines })
               { status := .ok, content := .latches latches }) ∧
         ∀ i,
           lines.get i =
             { s.plant.lines.get i with
               latch := if mask.testBit i.val then values.testBit i.val else (s.plant.lines.get i).latch } ∧
           latches.get i = (lines.get i).latch))

/-! ### Events of the scanner -/

/-- PASS_TIMER_EXPIRY (R13, R14) of a running timer: the timer starts again with the pass interval; with a pass in progress
the zone's pass is due; otherwise a pass starts on the snapshot of the zone's scannable entries in rising order, and an empty
snapshot completes the pass at once with an aggregate of count 0, with PROBE_SHORTAGE where the zone was not blind and is not IDLE
(R49, R53), and the zone is evaluated on it (R81, R86), the group or the release judged (R107, R111). With a measurement in flight
no grant follows; with the front end free the arbiter makes its grant in the same event (R16 to R18), as ArbiterRule says. That a
zone passed over whose due pass starts is asked again is the model's choice, log entry 37; the order of the members in a release
and in a group's entry, log entry 32. -/
def Obligations.PassTimerRule : Prop :=
  ∀ (s : State) (z : Zone),
    let p := s.plant
    let u := p.unit z
    let pass : PassState :=
      { u.pass with timer := some ((p.work.config.zones.get z).passInterval * 60000) }
    let begun : Plant := p.put z { u with pass := pass }
    s.mode = .running → u.pass.timer.isSome = true →
      (u.pass.progress.isSome = true →
        exec (.passTimerExpiry z) s = .next (s.moved (p.put z { u with pass := { pass with due := true } }))) ∧
      (u.pass.progress = none →
        ∃ r q : Plant, begun.PassStarted r z ∧ r.Granted q ∧ exec (.passTimerExpiry z) s = .next (s.moved q)) ∧
      ((∀ i, ¬p.Scans z i) →
        begun.formAggregate z =
          { count := 0, cmc := none, dmc := none, contributing := [], zwt := none,
            blind := decide (0 < (p.work.config.zones.get z).nmin) })

/-- MEASUREMENT_COMPLETION (R11 to R13, R15, R16, R21, R24, R40 to R45, R49). The averaged result is the mean of the samples
that the measurement takes, rounded half up for MOISTURE and away from zero for WOOD_TEMP; that these are the first of the
operand's samples, as many as the profile says, is the model's reading, log entry 17. A stale result changes no record. A pass
result sets the last raw value and is judged: SHORT and OPEN raise the fail streak, to FAILED with its alert at the fail count;
a reading in range is accepted or held back by the jump rule. A spot result is stored in the slot and recorded nowhere. The
pass then moves past the entries that are not measurable, and where none is left it completes: the aggregate is formed anew,
the zone is evaluated on it with the group or the release judged (R81, R86, R107, R111), and a due pass starts. Then the
arbiter makes its grant among all that ask (R16 to R18), as ArbiterRule says. That a zone passed over whose due pass starts is
asked again is the model's choice, log entry 37; the order of the members in a release and in a group's entry, log entry 32. -/
def Obligations.MeasurementRule : Prop :=
  ∀ (s : State) (samples : List Int) (m : Measurement), s.mode = .running → s.plant.frontEnd.inFlight = some m →
    let p := s.plant
    let raw := average m.kind m.samples samples
    let found := classify m.kind raw
    let reading := p.readingOf (p.work.probes.get m.entry) m.kind raw
    let taken := samples.take m.samples
    let freed : Plant :=
      { p with mux := p.straps.muxOff p.mux, frontEnd := { p.frontEnd with inFlight := none } }
    (m.samples ≤ samples.length →
      (m.kind = .moisture → (∀ x ∈ taken, 0 ≤ x ∧ x ≤ 1023) →
        raw = (2 * taken.sum + m.samples) / (2 * m.samples)) ∧
      (m.kind = .woodTemp → (∀ x ∈ taken, -400 ≤ x ∧ x ≤ 1500) →
        (0 ≤ taken.sum → raw = (2 * taken.sum + m.samples) / (2 * m.samples)) ∧
        (taken.sum < 0 → raw = -((-(2 * taken.sum) + m.samples) / (2 * m.samples))))) ∧
    ∃ t, exec (.measurementCompletion samples) s = .next t ∧
      (t.plant.frontEnd.inFlight = none → t.plant.mux = p.straps.muxOff p.mux) ∧
      (∀ z, m.requester = .zone z → m.stale = true → t.plant.records = p.records) ∧
      (∀ z r, m.requester = .zone z → m.stale = false → p.records.get m.entry = some r →
        let items := p.work.config.zones.get z
        let outcome (x : ProbeRecord) := t.plant.records = p.records.set m.entry (some x)
        (∀ bad, (found = .short ∧ bad = ProbeState.short) ∨ (found = .open ∧ bad = ProbeState.open) →
          (r.failStreak + 1 < items.failCount →
            outcome
              { r with
                lastRaw := some raw, state := bad, failStreak := r.failStreak + 1, heldCount := 0, candidate := none }) ∧
          (items.failCount ≤ r.failStreak + 1 →
            .zone z .probeFailed ∈ t.plant.alerts ∧
            outcome
              { r with
                lastRaw := some raw, state := .failed, failStreak := r.failStreak + 1, heldCount := 0,
                candidate := none })) ∧
        (found = .inRange →
          let near (v : Int) := (reading.value - v).natAbs ≤ items.jumpLimit
          let accepted :=
            items.jumpLimit = 0 ∨ (r.state ≠ .valid ∧ r.state ≠ .held) ∨ r.lastAccepted = none ∨
              (∃ v, r.lastAccepted = some v ∧ near v) ∨
              (r.state = .held ∧ ∃ c, r.candidate = some c ∧ near c) ∨ r.heldCount + 1 = 3
          (accepted →
            outcome
              { r with
                lastRaw := some raw
                state := .valid
                lastAccepted := some reading.value
                flags := reading.flags
                candidate := none
                heldCount := 0
                failStreak := 0
                runMinute := if (p.ctx z).state.watched = true then some (p.ctx z).runClock else none }) ∧
          (¬accepted →
            outcome
              { r with
                lastRaw := some raw, state := .held, heldCount := r.heldCount + 1,
                candidate := some reading.value }))) ∧
      (m.requester = .spot →
        ∃ (slot : SpotSlot) (q : Plant),
          (m.stale = false →
            slot =
              .done
                { entry := m.entry
                  kind := m.kind
                  raw := raw
                  classification := found
                  value := if found = .inRange then some (reading.value, reading.flags) else none }) ∧
          (m.stale = true →
            let c := p.work.probes.get m.entry
            slot = if p.straps.addressExists c.bank c.position = true then .waiting m.entry else .empty) ∧
          ({ freed with spot := slot } : Plant).Granted q ∧ t = s.moved q) ∧
      (∀ z g, m.requester = .zone z → (p.unit z).pass.progress = some g →
        let u := p.unit z
        ∃ failed : Bool,
          (failed = true ↔
            m.stale = false ∧ ∃ r, t.plant.records.get m.entry = some r ∧ r.state = .failed) ∧
          let judged := ({ freed with records := t.plant.records } : Plant).raiseIf failed (.zone z .probeFailed)
          (∀ skipped i more, g.rest.drop 1 = skipped ++ i :: more → (∀ j ∈ skipped, ¬judged.Scans z j) →
            judged.Scans z i →
            ∃ q : Plant,
              (judged.put z { u with pass := { u.pass with progress := some ⟨g.snapshot, i :: more⟩ } }).Granted q ∧
                t = s.moved q) ∧
          ((∀ j ∈ g.rest.drop 1, ¬judged.Scans z j) →
            ∃ r q : Plant, judged.PassCompleted r z ∧ r.Granted q ∧ t = s.moved q))

/-! ### Events of the sequencers -/

/-- MINUTE_TIMER_EXPIRY (R76, R100, R125) of a running timer: outside a run only the timer starts again; in HELD and SAFE the
run clock advances, and in a phase with its step clock while the zone is not eligible; the checkpoint count advances and at 30
the checkpoint is queued; in a phase and in HELD a running fan counts toward its reversal, and a dwell begins where it is due.
-/
def Obligations.MinuteRule : Prop :=
  ∀ (s : State) (z : Zone),
    let p := s.plant
    let u := p.unit z
    let fan := u.output.fan
    let turning := fan.machine = .runFwd ∨ fan.machine = .runRev
    let counted : FanState := { fan with reversalCount := min 720 (fan.reversalCount + 1) }
    let due := turning ∧ fan.interval ≠ 0 ∧ fan.interval ≤ min 720 (fan.reversalCount + 1)
    let clock (stepClock : Nat) : ZoneContext :=
      { u.ctx with
        minuteTimer := some 60000
        stepClock := stepClock
        runClock := min 65535 (u.ctx.runClock + 1)
        checkpointCount := if u.ctx.checkpointCount + 1 < 30 then u.ctx.checkpointCount + 1 else 0 }
    let after (stepClock : Nat) (output : OutputState) : Plant :=
      let v : ZoneUnit := { u with ctx := clock stepClock, output := output }
      if u.ctx.checkpointCount + 1 < 30 then p.put z v else (p.put z v).enqueue (.checkpoint z v.checkpoint)
    s.mode = .running → u.ctx.minuteTimer.isSome = true →
      (u.ctx.state ∈ [.idle, .starting, .done, .resumePending] →
        exec (.minuteTimerExpiry z) s =
          .next (s.moved (p.put z { u with ctx := { u.ctx with minuteTimer := some 60000 } }))) ∧
      (u.ctx.state = .safe →
        exec (.minuteTimerExpiry z) s = .next (s.moved (after u.ctx.stepClock u.output))) ∧
      (∀ stepClock,
        (u.ctx.state = .held ∧ stepClock = u.ctx.stepClock) ∨
          (u.ctx.state.inPhase = true ∧ stepClock = min 65535 (u.ctx.stepClock + 1) ∧ u.ctx.waiting = false ∧
            ((∀ y, ¬p.InStep y) ∨ ∃ y, p.InStep y ∧ (p.ctx y).waiting = false) ∧
              ∃ x, u.ctx.activeCopy = some x ∧ stepClock < x.minTime ∧ stepClock < x.maxTime) →
        (¬turning → exec (.minuteTimerExpiry z) s = .next (s.moved (after stepClock u.output))) ∧
        (turning → ¬due →
          exec (.minuteTimerExpiry z) s = .next (s.moved (after stepClock { u.output with fan := counted }))) ∧
        (due →
          exec (.minuteTimerExpiry z) s =
            .next
              (s.moved
                (after stepClock
                  { u.output.off with
                    fan :=
                      { counted with
                        machine := if fan.machine = .runFwd then .dwellToRev else .dwellToFwd
                        dwellTimer := some ((p.work.config.zones.get z).dwell * 1000) } }))))

/-- When a zone on step `r` of phase `ph` is found eligible, and with what reason (R86, R87): past the minimum time by time
alone where the sensor is not used and in CONDITION, by the sensor where it is used and the phase's condition is met; and
outside CONDITION at the maximum time. And what follows at a minute expiry of a zone in a phase state that does not wait (R76,
R86 to R89, R100, R110, R111, R125): its clocks advance, the periodic checkpoint is queued, a zone found eligible advances
with its reason, or waits with it in the lockstep set, the release is judged, and then the zone's fan's minute counts. The
order of the members in a release is the model's choice, log entry 32. -/
def Obligations.EligibilityRule : Prop :=
  (∀ (u : ZoneUnit) (items : ZoneConfig) (ph : Phase) (r : StepRecord),
    let past := r.minTime ≤ u.ctx.stepClock
    let warm (x : Int) := ∃ d, u.climate.dbSetpoint = some d ∧ d - items.warmupTolerance ≤ x
    let dry := ∃ c, u.aggregate.cmc = some c ∧ c.aboveRange = false ∧ c.value ≤ r.mcThreshold
    let condition :=
      match ph with
      | .warmup =>
        (∃ x, u.climate.db.status = .good ∧ u.climate.db.value = some x ∧ warm x) ∧
          ∀ t, u.aggregate.zwt = some t → warm t
      | .drying => dry
      | .equalize =>
        dry ∧ ∃ c d, u.aggregate.cmc = some c ∧ u.aggregate.dmc = some d ∧ c.value - d ≤ items.equalizeSpread
      | .condition => False
      | .cooldown =>
        ∃ x d, u.climate.db.status = .good ∧ u.climate.db.value = some x ∧ u.climate.dbSetpoint = some d ∧ x ≤ d
    (u.judgeStep items ph r = some .timeOnly ↔ past ∧ (r.sensor = .notUsed ∨ ph = .condition)) ∧
    (u.judgeStep items ph r = some .sensorMet ↔ past ∧ r.sensor = .used ∧ ph ≠ .condition ∧ condition) ∧
    (u.judgeStep items ph r = some .maxTime ↔
      ph ≠ .condition ∧ r.maxTime ≤ u.ctx.stepClock ∧ ¬(past ∧ (r.sensor = .notUsed ∨ condition))) ∧
    u.judgeStep items ph r ≠ some .skipped) ∧
  ∀ (s : State) (z : Zone),
    let p := s.plant
    let u := p.unit z
    let v : ZoneUnit :=
      { u with
        ctx :=
          { u.ctx with
            minuteTimer := some 60000
            stepClock := min 65535 (u.ctx.stepClock + 1)
            runClock := min 65535 (u.ctx.runClock + 1)
            checkpointCount := if u.ctx.checkpointCount + 1 < 30 then u.ctx.checkpointCount + 1 else 0 } }
    let clocked : Plant :=
      if u.ctx.checkpointCount + 1 < 30 then p.put z v else (p.put z v).enqueue (.checkpoint z v.checkpoint)
    s.mode = .running → u.ctx.minuteTimer.isSome = true → u.ctx.state.inPhase = true → u.ctx.waiting = false →
      ∃ r q : Plant,
        exec (.minuteTimerExpiry z) s = .next (s.moved q) ∧ clocked.Evaluated r z ∧ r.FanMinute q z

/-- START_TIMEOUT_EXPIRY and GROUP_START_TIMEOUT_EXPIRY (R80, R84, R108): the start fails with cause TIMEOUT and the conditions
that are not met, with START_FAILED, and the zone, or every member in STARTING, enters IDLE; a member that lacks nothing itself
lacks its group. Each entry into IDLE queues its checkpoint (R75, R100). That an ungrouped zone that lacks nothing carries GROUP
is the model's choice, log entry 28, and so is the order of the members, log entry 32. -/
def Obligations.StartTimeoutRule : Prop :=
  ∀ s : State, s.mode = .running →
    let p := s.plant
    let own (z : Zone) (x : Unmet) :=
      let items := p.work.config.zones.get z
      let climate := (p.unit z).climate
      (x.door = true ↔ items.preconditions.door = true ∧ p.doorOpen = true) ∧
      (x.fan = true ↔ items.preconditions.fan = true ∧ p.proof z = false) ∧
      (x.probes = true ↔ items.preconditions.probes = true ∧ (p.unit z).aggregate.count < items.nmin) ∧
      (x.climate = true ↔
        ¬(climate.db.status = .good ∧ climate.wb.status = .good ∧
          ∃ v, climate.db.value = some v ∧ v ≤ p.kiln.maximumDb + p.kiln.overtempMargin)) ∧
      x.group = !(x.door || x.fan || x.probes || x.climate)
    let failed (z : Zone) (x : Unmet) : ZoneUnit :=
      { p.unit z with
        ctx :=
          { (p.unit z).ctx with
            lastFailure :=
              some
                { source := (p.unit z).ctx.startSource, cause := .timeout, finding := none, unmet := some x } } }
    (∀ z, (p.ctx z).state = .starting → (p.ctx z).startTimeout.isSome = true →
      ∃ x, own z x ∧
        exec (.startTimeoutExpiry z) s =
          .next
            (s.moved
              (((p.raise (.zone z .startFailed)).put z (failed z x).idled).enqueue
                (.checkpoint z (failed z x).idled.checkpoint)))) ∧
    (p.groupTimeout.isSome = true →
      ∃ q : Plant, exec .groupStartTimeoutExpiry s = .next (s.moved q) ∧ p.SameBeyondZones q ∧ q.lines = p.lines ∧
        q.groupTimeout = none ∧
        (∀ z, (p.work.config.zones.get z).grouped = true → (p.ctx z).state = .starting →
          ∃ x, own z x ∧ q.unit z = (failed z x).idled) ∧
        (∀ z, ¬((p.work.config.zones.get z).grouped = true ∧ (p.ctx z).state = .starting) → q.unit z = p.unit z) ∧
        q.queue =
          (everyZone.foldl
            (fun x z =>
              if (p.work.config.zones.get z).grouped = true ∧ (p.ctx z).state = .starting then
                x.enqueue (.checkpoint z (q.unit z).checkpoint)
              else x)
            p).queue ∧
        ∀ a, a ∈ q.alerts ↔
          a ∈ p.alerts ∨
            ∃ z, a = .zone z .startFailed ∧ (p.work.config.zones.get z).grouped = true ∧ (p.ctx z).state = .starting)

/-! ### Events of climate and outputs -/

/-- CLIMATE_SAMPLE_COMPLETE (R81, R114, R115, R135, R136, R139, R140) of a running timer: both records take their samples;
SENSOR follows them and OVERTEMP joins above the limit; a running zone with a cause enters SAFE and one whose set empties
leaves it for HELD; a zone in STARTING is evaluated on its new samples, and with a member the group is judged (R107). The
order of the members in a group's entry is the model's choice, log entry 32; that HOST joins the hold-cause set of a zone in SAFE
that a cause has left while others stay (R142) is its reading, log entry 31. -/
def Obligations.ClimateSampleRule : Prop :=
  ∀ (s : State) (z : Zone) (db wb : Int),
    let p := s.plant
    let u := p.unit z
    let sampled (r : SensorRecord) (x : Int) : SensorRecord :=
      if x < -200 ∨ 1300 < x then { r with status := .faulty, goodStreak := 0 }
      else if r.status ≠ .faulty then { r with status := .good, value := some x }
      else if r.goodStreak = 2 then { status := .good, value := some x, goodStreak := 0 }
      else { r with value := some x, goodStreak := r.goodStreak + 1 }
    let v : ZoneUnit :=
      { u with
        climate := { u.climate with sampleTimer := some 10000, db := sampled u.climate.db db, wb := sampled u.climate.wb wb } }
    let faulty := v.climate.db.status = .faulty ∨ v.climate.wb.status = .faulty
    let good := v.climate.db.status = .good ∧ v.climate.wb.status = .good
    let hot :=
      ∃ x, v.climate.db.status = .good ∧ v.climate.db.value = some x ∧ p.kiln.maximumDb + p.kiln.overtempMargin < x
    ∀ causes : SafeCauses,
      causes.door = u.causes.door → causes.fan = u.causes.fan →
      (causes.sensor = true ↔ faulty ∨ (u.causes.sensor = true ∧ ¬good)) →
      (causes.overtemp = true ↔ u.causes.overtemp = true ∨ hot) →
      s.mode = .running → u.climate.sampleTimer.isSome = true →
      (u.ctx.state ∈ [.idle, .done, .resumePending] →
        exec (.climateSampleComplete z db wb) s = .next (s.moved (p.put z v))) ∧
      (u.ctx.state = .starting →
        ∃ q : Plant,
          exec (.climateSampleComplete z db wb) s = .next (s.moved q) ∧ (p.put z v).StartJudged q z) ∧
      (u.ctx.state = .held ∨ u.ctx.state.inPhase = true →
        (causes.any = false →
          exec (.climateSampleComplete z db wb) s = .next (s.moved (p.put z { v with causes := causes }))) ∧
        (causes.any = true →
          let w := v.secured causes p.kiln.safeFan
          exec (.climateSampleComplete z db wb) s =
            .next
              (s.moved
                (((({ p with
                    lines :=
                      Table.tabulate 16 fun i =>
                        if (p.work.config.lines.get i).role = .alarmOut then { p.lines.get i with latch := true }
                        else p.lines.get i } : Plant).raise (.zone z .safeEntered)).put z w).enqueue
                  (.checkpoint z w.checkpoint))))) ∧
      (u.ctx.state = .safe →
        (causes.any = true →
          exec (.climateSampleComplete z db wb) s = .next (s.moved (p.put z (v.stillSafe causes)))) ∧
        (causes.any = false →
          let w := v.released p.kiln.maximumDb p.holdIn
          exec (.climateSampleComplete z db wb) s =
            .next (s.moved ((p.put z w).enqueue (.checkpoint z w.checkpoint)))))

/-- RAMP_MINUTE_EXPIRY (R91, R120) in a phase state: each target moves by the ramp rate toward its setpoint and no further;
the timer runs on while a target is away, and a ramp completed takes a hold-pending zone into HELD. -/
def Obligations.RampMinuteRule : Prop :=
  ∀ (s : State) (z : Zone) (ph : Phase) (d w : Int),
    let p := s.plant
    let u := p.unit z
    let c := u.climate
    let toward (target setpoint : Int) : Int :=
      if (setpoint - target).natAbs < c.rampRate then setpoint
      else if target < setpoint then target + c.rampRate
      else if setpoint < target then target - c.rampRate
      else target
    let moved : ClimateState :=
      { c with dbTarget := toward c.dbTarget (60 * d), wbTarget := toward c.wbTarget (60 * w) }
    let away := moved.dbTarget ≠ 60 * d ∨ moved.wbTarget ≠ 60 * w
    s.mode = .running → c.rampTimer.isSome = true → u.ctx.state = .phase ph → c.dbSetpoint = some d →
    c.wbSetpoint = some w → c.Away →
      (away →
        exec (.rampMinuteExpiry z) s =
          .next (s.moved (p.put z { u with climate := { moved with rampTimer := some 60000 } }))) ∧
      (¬away → u.ctx.holdPending = false →
        exec (.rampMinuteExpiry z) s = .next (s.moved (p.put z { u with climate := { moved with rampTimer := none } }))) ∧
      (¬away → u.ctx.holdPending = true →
        let v := ({ u with climate := moved } : ZoneUnit).heldOver ph
        exec (.rampMinuteExpiry z) s = .next (s.moved ((p.put z v).enqueue (.checkpoint z v.checkpoint))))

/-- PULSE_PERIOD_START and ON_TIME_EXPIRY (R122, R123): a new period takes each output's on-time, its share of the period for
the error against the band, less than 2 seconds made 0, and sets its level and timer by it; at the end of an on-time the level
goes off. -/
def Obligations.PulseRule : Prop :=
  ∀ (s : State) (z : Zone), s.mode = .running →
    let p := s.plant
    let u := p.unit z
    let o := u.output
    let items := p.work.config.zones.get z
    let period := items.pulsePeriod
    let reading (r : SensorRecord) : Option Int := if r.status = .good then r.value else none
    let whole (target : Int) : Int := (2 * target + 60) / 120
    let share (error band : Int) (n : Nat) :=
      (error ≤ 0 → n = 0) ∧
      (0 < error →
        let t := (2 * (period * (min error band).toNat) + band.toNat) / (2 * band.toNat)
        n = if t < 2 then 0 else t)
    let out (n : Nat) : AutoOutput :=
      { level := decide (n ≠ 0), onTime := n, timer := if n ≠ 0 ∧ n < period then some (n * 1000) else none }
    let controlled :=
      (u.ctx.state = .held ∨ u.ctx.state.inPhase = true) ∧ o.fan.machine ≠ .dwellToRev ∧ o.fan.machine ≠ .dwellToFwd ∧
        p.fieldEnabled = true
    let started (heat spray vent : Nat) :=
      Host.Outcome.next
        (s.moved
          (p.put z
            { u with
              output :=
                { o with
                  pulseTimer := some (period * 1000)
                  heat := out heat
                  spray := out spray
                  vent := out vent } }))
    (o.pulseTimer.isSome = true →
      (¬controlled ∨ reading u.climate.db = none → exec (.pulsePeriodStart z) s = started 0 0 0) ∧
      (∀ db heat, controlled → reading u.climate.db = some db →
        share (whole u.climate.dbTarget - db) items.pbHeat heat →
        (reading u.climate.wb = none → exec (.pulsePeriodStart z) s = started heat 0 0) ∧
        (∀ wb spray vent, reading u.climate.wb = some wb →
          share (whole u.climate.wbTarget - min wb db) items.pbHum spray →
          share (min wb db - whole u.climate.wbTarget) items.pbHum vent →
          exec (.pulsePeriodStart z) s = started heat spray vent))) ∧
    (o.heat.timer.isSome = true →
      exec (.onTimeExpiry z .heat) s =
        .next (s.moved (p.put z { u with output := { o with heat := { o.heat with level := false, timer := none } } }))) ∧
    (o.spray.timer.isSome = true →
      exec (.onTimeExpiry z .spray) s =
        .next (s.moved (p.put z { u with output := { o with spray := { o.spray with level := false, timer := none } } }))) ∧
    (o.vent.timer.isSome = true →
      exec (.onTimeExpiry z .vent) s =
        .next (s.moved (p.put z { u with output := { o with vent := { o.vent with level := false, timer := none } } })))

/-- DWELL_EXPIRY, PROOF_DELAY_EXPIRY and OVERRIDE_LAPSE_EXPIRY (R125, R128, R137): the fan runs the other way with its count
at 0; the proof is overdue, and FAN takes a running zone into SAFE; every override becomes AUTO with OVERRIDE_LAPSED. -/
def Obligations.FanAndLapseExpiries : Prop :=
  ∀ (s : State) (z : Zone), s.mode = .running →
    let p := s.plant
    let u := p.unit z
    let o := u.output
    (∀ rev, o.fan.machine = (if rev = true then .dwellToRev else .dwellToFwd) → o.fan.dwellTimer.isSome = true →
      exec (.dwellExpiry z) s =
        .next
          (s.moved
            (p.put z
              { u with
                output :=
                  { o with
                    fan :=
                      { o.fan with
                        machine := if rev = true then .runRev else .runFwd
                        direction := if o.fan.direction = .forward then .reverse else .forward
                        reversalCount := 0
                        dwellTimer := none } } }))) ∧
    (o.proofTimer.isSome = true →
      let v : ZoneUnit := { u with proofOverdue := true, output := { o with proofTimer := none } }
      let causes : SafeCauses := { u.causes with fan := true }
      (u.ctx.state ∈ [.idle, .starting, .done, .resumePending] →
        exec (.proofDelayExpiry z) s = .next (s.moved (p.put z v))) ∧
      (u.ctx.state = .safe → exec (.proofDelayExpiry z) s = .next (s.moved (p.put z { v with causes := causes }))) ∧
      (u.ctx.state = .held ∨ u.ctx.state.inPhase = true →
        let w := v.secured causes p.kiln.safeFan
        exec (.proofDelayExpiry z) s =
          .next
            (s.moved
              (((({ p with
                  lines :=
                    Table.tabulate 16 fun i =>
                      if (p.work.config.lines.get i).role = .alarmOut then { p.lines.get i with latch := true }
                      else p.lines.get i } : Plant).raise (.zone z .safeEntered)).put z w).enqueue
                (.checkpoint z w.checkpoint))))) ∧
    (p.lapse.isSome = true →
      exec .overrideLapseExpiry s =
        .next
          (s.moved
            (({ p with
                lapse := none
                zones :=
                  PerZone.tabulate fun y =>
                    { p.unit y with
                      output :=
                        { (p.unit y).output with
                          overrides := { heat := .auto, spray := .auto, vent := .auto, fanRun := .auto, fanDir := .auto } } } } :
              Plant).raise (.device .overrideLapsed))))

/-! ### Events of the lines -/

/-- PIN_CHANGE and DEBOUNCE_TIMER_EXPIRY (R148) of a line whose role delivers nothing: a settled input compares the new level
with its debounced one and stops or restarts its timer, and at the expiry, or at once with debounce code 0, the debounced level
takes the level of the pin; an output line and a line that is settling only see the level; a part that does not run sees it
too. What a part in reset or without supply sees is the model's choice, log entry 20. The delivery of a change to the users of
the other roles, at an expiry and at once with debounce code 0, is LineDeliveryRule. -/
def Obligations.DebounceRule : Prop :=
  ∀ (s : State) (i : Fin 16) (high : Bool),
    let p := s.plant
    let c := p.work.config.lines.get i
    let l := p.lines.get i
    let active (x : Bool) : Bool := if c.polarity = .activeHigh then x else !x
    let output := c.role = .alarmOut ∨ c.role = .generalOut
    let became (x : LineState) := Host.Outcome.next (s.moved { p with lines := p.lines.set i x })
    (s.mode ≠ .running →
      exec (.pinChange i high) s =
        .next { s with plant := { p with lines := p.lines.set i { l with external := high, pin := high } } }) ∧
    (s.mode = .running →
      (output ∨ l.settled = false ∨ high = l.external →
        exec (.pinChange i high) s = became { l with external := high }) ∧
      (¬output → l.settled = true → high ≠ l.external →
        (active high = l.debounced →
          exec (.pinChange i high) s = became { l with external := high, timer := none }) ∧
        (active high ≠ l.debounced → c.debounce ≠ 0 →
          ∀ t, ([0, 10, 20, 50, 100, 200, 500, 1000] : List Nat)[c.debounce]? = some t →
            exec (.pinChange i high) s = became { l with external := high, timer := some t }) ∧
        (active high ≠ l.debounced → c.debounce = 0 → c.role = .none ∨ c.role = .generalIn →
          exec (.pinChange i high) s =
            became { l with external := high, debounced := active high, settled := true, timer := none })) ∧
      (c.role = .none ∨ c.role = .generalIn → l.timer.isSome = true →
        exec (.debounceTimerExpiry i) s =
          became { l with debounced := active l.external, settled := true, timer := none }))

/-- The delivery of a change of a line's debounced level (R78, R81, R90 to R92, R96, R105 to R107, R111, R134, R138, R140, R148,
R150), at its DEBOUNCE_TIMER_EXPIRY and, with debounce code 0, at the PIN_CHANGE of a settled line itself. A change of the door
condition puts DOOR into the safe-cause set of every zone or takes it out, so that running zones enter SAFE and those left
without causes leave it for HELD, and is evaluated by every zone in STARTING; a proof is evaluated by its zone in STARTING.
HOLD_IN that becomes active joins LINE to the hold-cause set of every zone that runs: hold-pending while a ramp is in flight,
HELD otherwise; once no hold line is active, LINE leaves every set that has it, and where one empties a HELD zone returns to its
phase and a hold-pending one goes on. A START_BUTTON that becomes active on a settled line is a start event of LINE, its group
start among it (R105). Everything else is left as it was. The door condition, a hold line active and the proof of a zone,
here and wherever a statement names them, are those of the lines whose debounced level is active (R134, R150). That watched zones
come before starting ones, zones in the order of their codes, and that the release is judged once after a HOLD_IN release is the
model's choice, log entries 32 and 38. That the ramp of a return starts before the zone is evaluated, that an advance within the
phase in such an event raises STEP_ADVANCED, and that HOST joins the hold-cause set of a zone in SAFE that a cause has left while
others stay (R142) are its reading, log entries 21, 15 and 31. -/
def Obligations.LineDeliveryRule : Prop :=
  (∀ p : Plant,
    let active (role : LineRole) (j : Fin 16) :=
      (p.work.config.lines.get j).role = role ∧ (p.lines.get j).debounced = true
    (p.doorOpen = true ↔ ∃ j, active .door j) ∧ (p.holdIn = true ↔ ∃ j, active .holdIn j) ∧
      ∀ z, p.proof z = true ↔ ∃ j, active .fanProof j ∧ (p.work.config.lines.get j).zone = z) ∧
  ∀ (s : State) (i : Fin 16) (event : Instr) (high : Bool), s.mode = .running →
    let p := s.plant
    let c := p.work.config.lines.get i
    let l := p.lines.get i
    let level := high == (c.polarity == .activeHigh)
    let output := c.role = .alarmOut ∨ c.role = .generalOut
    (event = .debounceTimerExpiry i ∧ l.timer.isSome = true ∧ high = l.external) ∨
        (event = .pinChange i high ∧ l.settled = true ∧ high ≠ l.external ∧ c.debounce = 0 ∧ level ≠ l.debounced ∧
          ¬output) →
    let after : Plant :=
      { p with lines := p.lines.set i { l with external := high, debounced := level, settled := true, timer := none } }
    ∃ q : Plant,
      (output → exec event s = .next (s.moved p)) ∧
      (¬output →
        exec event s = .next (s.moved q) ∧ p.SameBeyondZones q ∧
        (∀ j, q.lines.get j = after.lines.get j ∨ q.lines.get j = { after.lines.get j with latch := true }) ∧
        (level = l.debounced → q = after)) ∧
      (c.role = .none ∨ c.role = .generalIn → q = after) ∧
      (c.role = .door →
        (p.doorOpen = after.doorOpen → q = after) ∧
        (p.doorOpen ≠ after.doorOpen →
          ∃ r : Plant,
            Plant.Chain (fun z x x' => x.Caused x' z { (x.unit z).causes with door := after.doorOpen }) everyZone after r ∧
            r.StartsJudged q)) ∧
      (c.role = .fanProof → level ≠ l.debounced →
        ((p.ctx c.zone).state ≠ .starting → q = after) ∧
        ((p.ctx c.zone).state = .starting → after.StartJudged q c.zone)) ∧
      (c.role = .holdIn →
        (p.holdIn = after.holdIn → q = after) ∧
        (p.holdIn = false → after.holdIn = true →
          Plant.Chain (fun z x x' => x.HoldGained x' z { host := (x.ctx z).holds.host, line := true }) everyZone after q) ∧
        (p.holdIn = true → after.holdIn = false →
          ∃ r : Plant,
            Plant.Chain
              (fun z x x' =>
                ((x.ctx z).holds.line = false → x' = x) ∧
                ((x.ctx z).holds.line = true → x.HoldLeft x' z { host := (x.ctx z).holds.host, line := false }))
              everyZone after r ∧
            r.Released q)) ∧
      (c.role = .startButton →
        (¬(level = true ∧ l.debounced = false ∧ l.settled = true) → q = after) ∧
        (level = true → l.debounced = false → l.settled = true → after.EventStarted q .line StartMask.line))

/-! ### The link -/

/-- BYTE_ARRIVAL, BAD_LENGTH_BYTE, INTER_BYTE_TIMEOUT, STOP_BIT_ERROR and BREAK (R162, R168, R170, R171). A part that does not
run or that sends a reply takes no byte. In HUNT a sync byte opens a frame and any other byte is ignored; in FRAME a byte is
collected, a third byte outside 3..250 discards the frame and counts a check error, and a byte that does not complete the n + 5
bytes leaves the receiver collecting; a timeout, a stop bit error and a break return it to HUNT and count nothing. A request
whose frame completes while another is unanswered is not taken and counts an overrun; while TXEN is asserted, in reset and
without supply it is lost. That a request as a command is the end of its frame is the model's choice, log entry 12, and so is
that a discard event while TXEN is asserted leaves the partial frame until the reply ends, log entry 41. -/
def Obligations.ReceiverRule : Prop :=
  (∀ (s : State) (i : Instr) (env : Envelope), i.envelope = some env →
     (s.mode ≠ .running → exec i s = .next s) ∧
     (s.link.txen = true → exec i s = .next s) ∧
     (s.mode = .running → s.link.txen = false → s.link.unanswered.isSome = true →
       exec i s =
         .next
           { s with link := { s.link with receiver := .hunt, overruns := min 65535 (s.link.overruns + 1) } })) ∧
  (∀ s : State,
     let deaf := s.mode ≠ .running ∨ s.link.txen = true
     let became (r : Receiver) := Host.Outcome.next { s with link := { s.link with receiver := r } }
     let checkError :=
       Host.Outcome.next
         { s with link := { s.link with receiver := .hunt, checkErrors := min 65535 (s.link.checkErrors + 1) } }
     (deaf →
       exec .interByteTimeout s = .next s ∧ exec .stopBitError s = .next s ∧ exec .lineBreak s = .next s ∧
         ∀ b, exec (.byteArrival b) s = .next s ∧ exec (.badLengthByte b) s = .next s ∧
           exec (.frameComplete b) s = .next s) ∧
     (¬deaf →
       exec .interByteTimeout s = became .hunt ∧ exec .stopBitError s = became .hunt ∧ exec .lineBreak s = became .hunt ∧
         (s.link.receiver = .hunt →
           exec (.byteArrival 0xC3) s = became (.frame [0xC3]) ∧
             ∀ b, b ≠ 0xC3 → exec (.byteArrival b) s = .next s) ∧
         ∀ (bytes : List Byte) (b : Byte), s.link.receiver = .frame bytes →
           (bytes.length < 2 → exec (.byteArrival b) s = became (.frame (bytes ++ [b]))) ∧
           (bytes.length = 2 →
             (b.toNat < 3 ∨ 250 < b.toNat →
               exec (.byteArrival b) s = checkError ∧ exec (.badLengthByte b) s = checkError) ∧
             (3 ≤ b.toNat → b.toNat ≤ 250 → exec (.byteArrival b) s = became (.frame (bytes ++ [b])))) ∧
           ∀ n : Byte, bytes[2]? = some n → bytes.length + 1 ≠ n.toNat + 5 →
             exec (.byteArrival b) s = became (.frame (bytes ++ [b]))))

/-- FRAME_COMPLETE (R169, R171, R174 check 1) for the byte `lo` that makes the frame of station, length, kind `k` `l`, tag and
payload whole: it is the arrival of that byte; a wrong CRC counts a check error; a frame for another station is dropped; a
frame while a request is unanswered counts an overrun; any other is taken, and exactly one of unknown kind or wrong payload
length is answered BAD_FORM and changes nothing else (R174 check 2). The lengths are those of the fields of each kind (R175);
the item bytes and forms of CW, CR and SW are the model's reading, log entries 7, 8 and 11, and an item that CW and CR do not
define has no length of its own. The receiver stands in HUNT after each. -/
def Obligations.FrameJudgementRule : Prop :=
  ∀ (s : State) (station n k l tag : Byte) (payload : List Byte) (hi lo : Byte),
    s.mode = .running → s.link.txen = false → payload.length + 3 = n.toNat →
    let body := [station, n, k, l, tag] ++ payload
    let good := crcBytes (crcOf body) = [hi, lo]
    let broadcast := station = 0
    let mine := broadcast ∨ station.toNat = s.plant.straps.station
    let fits (kind : RequestKind) : Prop :=
      match kind with
      | .id | .st | .rs | .cc | .sr | .sn | .rf | .fe | .fd | .lr => payload.length = 0
      | .pr | .px | .pi | .sp | .gr | .sc | .er | .go | .hd | .rm | .sk | .ab | .rl | .cl | .rv | .zr =>
        payload.length = 1
      | .or | .rr => payload.length = 2
      | .ds | .ov => payload.length = 3
      | .lw => payload.length = 4
      | .un | .cd => payload.length = 8
      | .pw => payload.length = 9
      | .ew => payload.length = 11
      | .gw => payload.length = 21
      | .ak => ∃ count rest, payload = count :: rest ∧ rest.length = 2 * count.toNat
      | .sw => ∃ form rest, payload = form :: rest ∧ ((form = 0 ∧ rest.length = 0) ∨ (form = 1 ∧ rest.length = 15))
      | .cw =>
        ∃ item rest, payload = item :: rest ∧
          ∀ length, ([9, 23, 4, 4, 9, 4, 8] : List Nat)[item.toNat]? = some length → payload.length = length
      | .cr =>
        ∃ item rest, payload = item :: rest ∧
          ∀ length, ([1, 2, 1, 1, 2, 1, 2] : List Nat)[item.toNat]? = some length → payload.length = length
    let left (f : LinkState → LinkState) := Host.Outcome.next { s with link := f { s.link with receiver := .hunt } }
    s.link.receiver = .frame ([0xC3] ++ body ++ [hi]) →
      exec (.byteArrival lo) s = exec (.frameComplete lo) s ∧
      (¬good → exec (.frameComplete lo) s = left fun x => { x with checkErrors := min 65535 (x.checkErrors + 1) }) ∧
      (good → ¬mine → exec (.frameComplete lo) s = left id) ∧
      (good → mine → s.link.unanswered.isSome = true →
        exec (.frameComplete lo) s = left fun x => { x with overruns := min 65535 (x.overruns + 1) }) ∧
      (good → mine → s.link.unanswered = none →
        (∃ t u, exec (.frameComplete lo) s = .next t ∧ t.link.receiver = .hunt ∧ t.link.unanswered = some u ∧
          u.kind = (k, l) ∧ u.tag = tag.toNat ∧ u.broadcast = decide broadcast) ∧
        ((∀ kind : RequestKind, kind.letters ≠ (k, l)) ∨ (∃ kind : RequestKind, kind.letters = (k, l) ∧ ¬fits kind) →
          exec (.frameComplete lo) s =
            left fun x =>
              { x with
                unanswered :=
                  some
                    { kind := (k, l)
                      tag := tag.toNat
                      broadcast := decide broadcast
                      answer := { status := .badForm }
                      awaitsStore := false
                      resets := false } }) ∧
        ∀ kind : RequestKind, kind.letters = (k, l) → fits kind →
          ∃ t u, exec (.frameComplete lo) s = .next t ∧ t.link.unanswered = some u ∧ u.answer.status ≠ .badForm)

/-- A request of the table is what the completion of the frame that carries it does: the last byte of the frame, addressed or
broadcast, does to a part that has collected the others what the request does (R168 to R174); and so do all its bytes, one
after the other, to a part that hunts. That a request as a command is the end of its frame is the model's choice, log entry 12;
the bytes of its payload that R175 leaves open are its reading, log entries 7 to 10. -/
def Obligations.FrameCarriesRequest : Prop :=
  ∀ (s : State) (i : Instr) (env : Envelope) (kind : RequestKind) (payload : List Byte),
    i.wellFormed = true → i.envelope = some env → encodeRequest i = some (kind, payload) →
    let frame := requestFrame (if env.broadcast then 0 else s.plant.straps.station) kind env.tag payload
    (∀ bytes last, frame = bytes ++ [last] → s.link.receiver = .frame bytes → exec (.frameComplete last) s = exec i s) ∧
    (s.mode = .running → s.link.txen = false → s.link.receiver = .hunt →
      frame.foldl
          (fun o b =>
            match o with
            | .next t => exec (.byteArrival b) t
            | x => x)
          (.next s) =
        exec i s)

/-- Decode and encode agree for the requests (R174, R175, R176): the kind bytes and the payload written for a well-formed
request, whatever its operands, are read back as that request, and the payload fits a frame. The item bytes of CW and CR and
their order are the model's reading, log entries 7 to 10. -/
def Obligations.PayloadRoundTrip : Prop :=
  ∀ (i : Instr) (env : Envelope) (kind : RequestKind) (payload : List Byte),
    i.wellFormed = true → i.envelope = some env → encodeRequest i = some (kind, payload) →
      parseRequest env kind.letters payload = .request i ∧ payload.length + 3 ≤ 250

/-- REPLY_START and REPLY_END (R162, R168, R170, R172, R173). The reply begins while the part runs, sends nothing and has an
unanswered request that waits for no write: it is the frame of sync, station, n, the kind in lower case, the tag, the status
byte with the content, and the CRC over bytes 1 to 2 + n; a broadcast gets none and is unanswered no longer, and a broadcast RS
resets the part at that moment, as ResetRule says of a commanded reset. The bytes of every content (ST's, ZR's, CR's, RR's and
the rest) are the fields of R175 in the order of the rule that lists them (R8, R22, R48, R54, R56, R60, R66, R80, R97, R101,
R113, R131, R144, R146, R154, R176, R180, R182), as Layout.content spells them. At the end of the reply TXEN is deasserted, the
receiver stands in HUNT and the request is unanswered no longer; an RS so answered makes its reset due, the model's reading,
log entry 16. What R175 leaves open of a layout is the model's reading too: the jump limit and the equalize spread of CR ZONE
as one byte each, log entry 8; two-valued fields, log entry 9; the order and the counts of items, eligible, a stopped timer,
and each fan pin before its override entry, log entry 14; remaining minutes, log entry 25; the FAN-DIR level, log entry 34.
ID's revision byte is free, log entry 6; a REPLY_START or REPLY_END that cannot come changes nothing, log entry 5. -/
def Obligations.ReplyRule : Prop :=
  (∀ (u : Unanswered) (straps : Straps),
    let content := Layout.content u.answer.content
    let body :=
      [b8 straps.station, b8 (content.length + 4), lowerCase u.kind.1, lowerCase u.kind.2, b8 u.tag,
        b8 u.answer.status.code] ++ content
    u.reply straps = [0xC3] ++ body ++ crcBytes (crcOf body)) ∧
  ∀ s : State,
    (s.mode ≠ .running ∨ s.link.txen = true ∨ s.link.unanswered = none → exec .replyStart s = .next s) ∧
    (s.mode ≠ .running ∨ s.link.txen = false → exec .replyEnd s = .next s) ∧
    ∀ u, s.mode = .running → s.link.unanswered = some u →
      (s.link.txen = false →
        (u.awaitsStore = true → exec .replyStart s = .next s) ∧
        (u.awaitsStore = false → u.broadcast = true →
          (u.resets = false → exec .replyStart s = .next { s with link := { s.link with unanswered := none } }) ∧
          (u.resets = true →
            exec .replyStart s = exec .commandedReset { s with link := { s.link with resetDue := true } } ∧
              ∃ t, exec .replyStart s = .next t ∧ t.mode = .inReset .commanded)) ∧
        (u.awaitsStore = false → u.broadcast = false →
          exec .replyStart s =
            .next { s with link := { s.link with txen := true, sending := u.reply s.plant.straps } })) ∧
      (s.link.txen = true →
        exec .replyEnd s =
          .next
            { s with
              link :=
                { s.link with
                  txen := false
                  sending := []
                  receiver := .hunt
                  unanswered := none
                  resetDue := s.link.resetDue || u.resets } })

/-! ### The store -/

/-- The store write queue (R158, R159, R161, R172) and the checkpoint (R160). An item queued with nothing in flight begins its
write with its content as it stands; else a host item waits at the end and a checkpoint item in the place of a waiting one of
its zone, or at the end. STORE_WRITE_COMPLETE puts the content into its section, which then passes its check, begins the write
of the oldest waiting item, and lets the request of a host item be answered; a broadcast is then unanswered no longer. A
completion with no write in flight changes nothing, the model's choice, log entry 5. -/
def Obligations.StoreWriteRule : Prop :=
  (∀ (p : Plant) (item : StoreItem) (z : Zone) (c : Checkpoint),
    (p.queue.inFlight = none →
      p.enqueue item = { p with queue := { p.queue with inFlight := some (p.work.begin item) } }) ∧
    (p.queue.inFlight.isSome = true →
      (∀ x, p.enqueue (.host x) = { p with queue := { p.queue with waiting := p.queue.waiting ++ [.host x] } }) ∧
      ((∀ d, .checkpoint z d ∉ p.queue.waiting) →
        p.enqueue (.checkpoint z c) =
          { p with queue := { p.queue with waiting := p.queue.waiting ++ [.checkpoint z c] } }) ∧
      ∀ before after d, p.queue.waiting = before ++ .checkpoint z d :: after → (∀ e, .checkpoint z e ∉ before) →
        p.enqueue (.checkpoint z c) =
          { p with queue := { p.queue with waiting := before ++ .checkpoint z c :: after } }) ∧
    p.work.begin (.checkpoint z c) = .checkpoint z c ∧
    p.work.begin (.host .configuration) = .host (.configuration p.work.config) ∧
    p.work.begin (.host .probeTable) = .host (.probeTable p.work.probes) ∧
    p.work.begin (.host .species) = .host (.species p.work.species) ∧
    p.work.begin (.host .schedule) = .host (.schedule p.work.records) ∧
    p.work.begin (.host .entryTables) = .host (.entryTables p.work.entries) ∧
    p.work.begin (.host .accessCode) = .host (.accessCode p.work.code)) ∧
  (∀ u : ZoneUnit,
    u.checkpoint.step = u.ctx.stepIndex ∧ u.checkpoint.stepClock = u.ctx.stepClock ∧
    u.checkpoint.runClock = u.ctx.runClock ∧ u.checkpoint.detached = u.ctx.detached ∧
    u.checkpoint.hostHold = u.ctx.holds.host ∧ u.checkpoint.direction = u.output.fan.direction ∧
    (u.ctx.state = .idle → u.checkpoint.recorded = .idle) ∧ (u.ctx.state = .done → u.checkpoint.recorded = .done) ∧
    ∀ ph, (u.ctx.state = .phase ph → u.checkpoint.recorded = .phase ph) ∧
      (u.ctx.state = .held ∨ u.ctx.state = .safe → u.ctx.underlying = some ph → u.checkpoint.recorded = .held ph)) ∧
  ∀ s : State,
    let p := s.plant
    let next : StoreQueue :=
      match p.queue.waiting with
      | [] => { inFlight := none, waiting := [] }
      | x :: xs => { inFlight := some (p.work.begin x), waiting := xs }
    let written (store : Nonvolatile) (link : LinkState) :=
      Host.Outcome.next { s with plant := { p with store := store, queue := next }, link := link }
    (s.mode ≠ .running ∨ p.queue.inFlight = none → exec .storeWriteComplete s = .next s) ∧
    (s.mode = .running →
      (∀ z c, p.queue.inFlight = some (.checkpoint z c) →
        exec .storeWriteComplete s =
          written { p.store with checkpoints := p.store.checkpoints.set z (some c) } s.link) ∧
      (∀ content, p.queue.inFlight = some (.host content) →
        let store : Nonvolatile :=
          match content with
          | .configuration x => { p.store with configuration := some x }
          | .probeTable x => { p.store with probeTable := some x }
          | .species x => { p.store with species := some x }
          | .schedule x => { p.store with schedule := some x }
          | .entryTables x => { p.store with entryTables := some x }
          | .accessCode x => { p.store with accessCode := some x }
        ((∀ u, s.link.unanswered = some u → u.awaitsStore = false) →
          exec .storeWriteComplete s = written store s.link) ∧
        ∀ u, s.link.unanswered = some u → u.awaitsStore = true →
          (u.broadcast = true →
            exec .storeWriteComplete s = written store { s.link with unanswered := none }) ∧
          (u.broadcast = false →
            exec .storeWriteComplete s =
              written store { s.link with unanswered := some { u with awaitsStore := false } })))

/-! ### Resets -/

/-- POWER_ON_RESET, PIN_RESET, COMMANDED_RESET and POWER_LOSS (R162, R165, R183). A power-on reset and the loss of the supply
cut the write in flight, whose section then fails its check; a pin reset and a commanded one complete it. The waiting items,
the measurement, the unanswered request and every volatile item are gone. A power-on reset clears the link's state and the
cause record but for its own mark; the others keep the gate and the counters and add their mark. A pin reset is taken while the
part runs, a commanded one while its RS has been answered. The order of the reply to RS and its reset, the time at which
volatile items are lost, the power-on reset without a loss of the supply before it, and resets that cannot come are the model's
choices, log entries 5, 16, 20 and 22. -/
def Obligations.ResetRule : Prop :=
  ∀ s : State,
    let p := s.plant
    let l := s.link
    let gone (store : Nonvolatile) (lines : Table 16 LineState) : Plant :=
      { straps := p.straps, alerts := [], attn := false, work := p.work, store := store,
        queue := { inFlight := none, waiting := [] }, cursor := 0, zones := .all {}, groupTimeout := none,
        records := .fill 64 none, frontEnd := { inFlight := none, previous := none },
        arbiter := { pointer := .spot, turn := .favoured }, spot := .empty, mux := 0, lines := lines,
        delayedStart := none, lapse := none, fieldEnabled := false }
    let kept (cause : CauseRecord) : LinkState :=
      { receiver := .hunt, txen := false, sending := [], unanswered := none, gate := l.gate,
        checkErrors := l.checkErrors, overruns := l.overruns, cause := cause, resetDue := false }
    let cut : Nonvolatile :=
      match p.queue.inFlight with
      | none => p.store
      | some (.checkpoint z _) => { p.store with checkpoints := p.store.checkpoints.set z none }
      | some (.host (.configuration _)) => { p.store with configuration := none }
      | some (.host (.probeTable _)) => { p.store with probeTable := none }
      | some (.host (.species _)) => { p.store with species := none }
      | some (.host (.schedule _)) => { p.store with schedule := none }
      | some (.host (.entryTables _)) => { p.store with entryTables := none }
      | some (.host (.accessCode _)) => { p.store with accessCode := none }
    let completed : Nonvolatile :=
      match p.queue.inFlight with
      | none => p.store
      | some w => p.store.write w
    ∃ lines : Table 16 LineState,
      (∀ i, lines.get i =
        { latch := false, external := (p.lines.get i).external, pin := (p.lines.get i).external, debounced := false,
          settled := false, timer := none }) ∧
      exec .powerOnReset s =
        .next
          { pending := s.pending
            mode := .inReset .powerOn
            resetDrive := true
            link :=
              { receiver := .hunt, txen := false, sending := [], unanswered := none, gate := .locked, checkErrors := 0,
                overruns := 0, cause := { powerOn := true, pin := false, commanded := false, lastKind := .powerOn },
                resetDue := false }
            plant := gone cut lines } ∧
      (s.mode = .running →
        exec .pinReset s =
          .next
            { pending := s.pending, mode := .inReset .pin, resetDrive := false,
              link := kept { l.cause with pin := true, lastKind := .pin }, plant := gone completed lines }) ∧
      (s.mode ≠ .running → exec .pinReset s = .next s) ∧
      (s.mode = .running → l.resetDue = true →
        exec .commandedReset s =
          .next
            { pending := s.pending, mode := .inReset .commanded, resetDrive := true,
              link := kept { l.cause with commanded := true, lastKind := .commanded }, plant := gone completed lines }) ∧
      (s.mode ≠ .running ∨ l.resetDue = false → exec .commandedReset s = .next s) ∧
      (s.mode ≠ .off →
        exec .powerLoss s =
          .next
            { pending := s.pending, mode := .off, resetDrive := false, link := kept l.cause, plant := gone cut lines }) ∧
      (s.mode = .off → exec .powerLoss s = .next s)

/-- RESTART (R5, R7, R13, R14, R16, R23, R55, R76, R102, R114, R122, R148, R151, R153, R155, R157, R161, R163, R164): the part
runs with the straps as they stand. Each section that passes its check is loaded and each other one stands as delivered; the
link, the store and the levels applied to the lines are as before. RESET_SEEN, STORE_DEFAULTED, UNREACHABLE_PROBES,
CHECKPOINT_LOST and RESUME_WAITING are raised where their conditions hold; each zone's state follows its checkpoint, and a lost
one sounds ALARM_OUT and queues an IDLE checkpoint. Each assigned entry is UNSEEN, or UNREACHABLE where its address does not
exist. The timers of every zone run; each input line settles, at once with debounce code 0, and each output line drives its
safe level or the latch it keeps. Each zone's first pass starts on its entries, an empty one completing at once, blind and with
PROBE_SHORTAGE where the zone is not IDLE, and the arbiter makes its first grant; all else is as after every reset. Outside a
reset it does nothing, the model's choice, log entry 5. The aggregate that an empty first pass forms, the one grant after all
four starts, the settled state of an output line, the order A to D of the lost checkpoints, and that the zone states are
restored before the first passes, on which PROBE_SHORTAGE depends, are the model's reading, log entries 3, 18, 19, 32 and 42.
-/
def Obligations.RestartRule : Prop :=
  ∀ (s : State) (sta : BitVec 5) (bd mxs : BitVec 2),
    ((∀ k, s.mode ≠ .inReset k) → exec (.restart sta bd mxs) s = .next s) ∧
    ∀ k, s.mode = .inReset k →
      ∃ q : Plant,
        let store := s.plant.store
        exec (.restart sta bd mxs) s = .next { s with mode := .running, resetDrive := false, plant := q } ∧
        q.straps = ⟨sta, bd, mxs⟩ ∧ q.store = store ∧
        q.work =
          { config := store.configuration.getD .delivered
            probes := store.probeTable.getD (.fill 64 {})
            species := store.species.getD (.fill 8 .delivered)
            records := store.schedule.getD (.fill 128 none)
            entries := store.entryTables.getD (.all {})
            code := store.accessCode.getD (List.replicate 8 0) } ∧
        q.cursor = 0 ∧ q.groupTimeout = none ∧ q.spot = .empty ∧ q.delayedStart = none ∧ q.lapse = none ∧
        q.fieldEnabled = false ∧
        (∀ i,
          let c := q.work.config.lines.get i
          let external := (s.plant.lines.get i).external
          (c.role = .alarmOut ∨ c.role = .generalOut →
            ∃ latch : Bool,
              (latch = true ↔ c.role = .alarmOut ∧ ∃ z, store.checkpoints.get z = none) ∧
              let drive := if c.keep = true then latch else c.safeActive
              q.lines.get i =
                { latch := latch, external := external, pin := if c.polarity = .activeHigh then drive else !drive,
                  debounced := drive, settled := true, timer := none }) ∧
          (¬(c.role = .alarmOut ∨ c.role = .generalOut) →
            (∀ t, c.debounce ≠ 0 → ([0, 10, 20, 50, 100, 200, 500, 1000] : List Nat)[min 7 c.debounce]? = some t →
              q.lines.get i =
                { latch := false, external := external, pin := external, debounced := false, settled := false,
                  timer := some t }) ∧
            (c.debounce = 0 →
              q.lines.get i =
                { latch := false, external := external, pin := external,
                  debounced := external == (c.polarity == .activeHigh), settled := true, timer := none }))) ∧
        (let lost := [Zone.a, .b, .c, .d].filter fun z => (store.checkpoints.get z).isNone
         let idle : Checkpoint :=
           { recorded := .idle, step := none, stepClock := 0, runClock := 0, detached := false, hostHold := false,
             direction := .forward }
         q.queue =
           match lost with
           | [] => { inFlight := none, waiting := [] }
           | z :: zs => { inFlight := some (.checkpoint z idle), waiting := zs.map fun y => .checkpoint y idle }) ∧
        (let scanned (z : Zone) (i : Fin 64) :=
           (q.work.probes.get i).zone = some z ∧
             q.straps.addressExists (q.work.probes.get i).bank (q.work.probes.get i).position = true
         let asks (z : Zone) := ∃ i, scanned z i
         let scan := q.work.config.scan
         (∀ z,
           (∀ snapshot : List (Fin 64), snapshot ≠ [] → snapshot.Pairwise (fun i j => i.val < j.val) →
             (∀ i, i ∈ snapshot ↔ scanned z i) →
             (q.unit z).pass.progress = some ⟨snapshot, snapshot⟩ ∧ (q.unit z).aggregate = {}) ∧
           (¬asks z →
             let blind := decide (0 < (q.work.config.zones.get z).nmin)
             (q.unit z).pass.progress = none ∧
             (q.unit z).aggregate =
               { count := 0, cmc := none, dmc := none, contributing := [], zwt := none, blind := blind }) ∧
           (.zone z .probeShortage ∈ q.alerts ↔
             ¬asks z ∧ 0 < (q.work.config.zones.get z).nmin ∧ (q.ctx z).state ≠ .idle) ∧
           ∀ k, .zone z k ∈ q.alerts → k ∈ [.probeShortage, .checkpointLost, .resumeWaiting]) ∧
         ((∀ z, ¬asks z) →
           q.frontEnd = { inFlight := none, previous := none } ∧ q.mux = 0 ∧
             q.arbiter = { pointer := .spot, turn := .favoured }) ∧
         ∀ (z : Zone) (i : Fin 64) (arbiter : Arbiter),
           let first := ∀ y : Zone, y.code < z.code → ¬asks y
           let favoured := asks scan.favoured
           (scan.mode = .equal ∧ first ∧ arbiter = { pointer := .zone z, turn := .favoured }) ∨
             (scan.mode = .favor ∧ z = scan.favoured ∧ arbiter = { pointer := .spot, turn := .others }) ∨
             (scan.mode = .favor ∧ ¬favoured ∧ first ∧ arbiter = { pointer := .zone z, turn := .favoured }) →
           scanned z i → (∀ j, scanned z j → i.val ≤ j.val) →
             q.arbiter = arbiter ∧
             ∃ m : Measurement,
               q.frontEnd = { inFlight := some m, previous := some m.window } ∧ q.Begins (.zone z) i none m q.mux) ∧
        .device .resetSeen ∈ q.alerts ∧ q.attn = true ∧
        (.device .storeDefaulted ∈ q.alerts ↔
          store.configuration = none ∨ store.probeTable = none ∨ store.species = none ∨ store.schedule = none ∨
            store.entryTables = none ∨ store.accessCode = none) ∧
        (.device .unreachableProbes ∈ q.alerts ↔
          ∃ i, (q.work.probes.get i).zone.isSome = true ∧
            q.straps.addressExists (q.work.probes.get i).bank (q.work.probes.get i).position = false) ∧
        .device .overrideLapsed ∉ q.alerts ∧
        (∀ i,
          let c := q.work.probes.get i
          (c.zone = none → q.records.get i = none) ∧
          (c.zone.isSome = true → ∃ r : ProbeRecord,
            q.records.get i = some r ∧
              r =
                { state := if q.straps.addressExists c.bank c.position then .unseen else .unreachable, lastRaw := none,
                  lastAccepted := none, flags := {}, candidate := none, heldCount := 0, failStreak := 0,
                  runMinute := none })) ∧
        ∀ z,
          let items := q.work.config.zones.get z
          let fresh : ZoneContext := { minuteTimer := some 60000 }
          (.zone z .checkpointLost ∈ q.alerts ↔ store.checkpoints.get z = none) ∧
          (.zone z .resumeWaiting ∈ q.alerts ↔ (q.ctx z).state = .resumePending) ∧
          (q.unit z).climate = { sampleTimer := some 10000 } ∧
          (q.unit z).output = { pulseTimer := some (items.pulsePeriod * 1000) } ∧
          (q.unit z).causes = { door := false, sensor := false, fan := false, overtemp := false } ∧
          (q.unit z).proofOverdue = false ∧ (q.unit z).pass.timer = some (items.passInterval * 60000) ∧
          (q.unit z).pass.due = false ∧
          (store.checkpoints.get z = none → q.ctx z = fresh) ∧
          ∀ c, store.checkpoints.get z = some c →
            (c.recorded = .idle → q.ctx z = fresh) ∧
            (c.recorded = .done →
              q.ctx z =
                { fresh with
                  state := .done
                  stepIndex := c.step
                  stepClock := c.stepClock
                  runClock := c.runClock }) ∧
            ∀ ph, c.recorded = .phase ph ∨ c.recorded = .held ph →
              q.ctx z =
                { fresh with
                  state := .resumePending
                  stepIndex := c.step
                  stepClock := c.stepClock
                  runClock := c.runClock
                  detached := c.detached
                  resumeFrom := some c }

/-! ### Readings, aggregates and grants -/

/-- The classes of an averaged result (R25, R26), the temperature cascade with its clamp (R28, R29), the correction of the
code (R30), the curve (R35) and the flags (R36), for an entry of a legal species group. -/
def Obligations.MoistureRule : Prop :=
  ∀ (p : Plant) (c : ProbeConfig) (l : Int),
    let g := p.work.species.get c.group
    let named (t : Int) :=
      ∃ j r, c.source = some j ∧ (p.work.probes.get j).zone.isSome = true ∧ (p.work.probes.get j).kind = .woodTemp ∧
        p.records.get j = some r ∧ (r.state = .valid ∨ r.state = .held) ∧ r.lastAccepted = some t
    let zoned (t : Int) := ∃ z, c.zone = some z ∧ (p.unit z).aggregate.zwt = some t
    let measured (t : Int) :=
      ∃ z, c.zone = some z ∧ (p.unit z).climate.db.status = .good ∧ (p.unit z).climate.db.value = some t
    let supplied (t : Int) (assumed : Bool) :=
      (assumed = false ∧
        (named t ∨ ((∀ x, ¬named x) ∧ (zoned t ∨ ((∀ x, ¬zoned x) ∧ measured t))))) ∨
      (assumed = true ∧ t = 200 ∧ ∀ x, ¬named x ∧ ¬zoned x ∧ ¬measured x)
    let awayFromZero (n d : Int) : Int := if 0 ≤ n then (2 * n + d) / (2 * d) else -((-(2 * n) + d) / (2 * d))
    (classify .moisture l = .short ↔ l < 160) ∧ (classify .moisture l = .open ↔ 832 < l) ∧
    (classify .moisture l = .inRange ↔ 160 ≤ l ∧ l ≤ 832) ∧
    (classify .woodTemp l = .open ↔ l < -300) ∧ (classify .woodTemp l = .short ↔ 1400 < l) ∧
    (classify .woodTemp l = .inRange ↔ -300 ≤ l ∧ l ≤ 1400) ∧
    p.readingOf c .woodTemp l =
      { value := max (-200) (min 1200 l), flags := { aboveRange := false, belowRange := false, uncorrected := false } } ∧
    (∃ t assumed, supplied t assumed) ∧
    ∀ t assumed, supplied t assumed →
      let l20 := max 0 (min 1023 (l + awayFromZero (g.k * (max (-200) (min 1200 t) - 200)) 1000))
      (p.readingOf c .moisture l).flags =
        { aboveRange := decide (l20 < 256), belowRange := decide (768 < l20), uncorrected := assumed } ∧
      (l20 ≤ 256 → (p.readingOf c .moisture l).value = g.knot 0) ∧
      (768 ≤ l20 → (p.readingOf c .moisture l).value = g.knot 8) ∧
      (g.Legal → 256 < l20 → l20 < 768 →
        ∃ j f : Nat, j ≤ 7 ∧ f ≤ 63 ∧ l20 = 256 + 64 * j + f ∧
          (p.readingOf c .moisture l).value =
            (g.knot j : Int) - (2 * (((g.knot j : Int) - g.knot (j + 1)) * f) + 64) / 128)

/-- The zone aggregate at a pass complete (R49 to R53): the valid set, its ranking, the contributing entries, the CMC with its
flag, the DMC, the ZWT and the blind field, for MC values that are not negative as R33 has them, and PROBE_SHORTAGE. -/
def Obligations.AggregateRule : Prop :=
  ∀ (p : Plant) (z : Zone),
    let items := p.work.config.zones.get z
    let a := p.formAggregate z
    let counts (kind : ProbeKind) (i : Fin 64) (v : Int) :=
      (p.work.probes.get i).zone = some z ∧ (p.work.probes.get i).kind = kind ∧
        ∃ r, p.records.get i = some r ∧ (r.state = .valid ∨ r.state = .held) ∧ r.lastAccepted = some v
    let value (i : Fin 64) : Int := ((p.records.get i).bind ProbeRecord.lastAccepted).getD 0
    let total (xs : List (Fin 64)) : Int := (xs.map value).sum
    (∀ i v, counts .moisture i v → 0 ≤ v) →
      (∃ ranking : List (Fin 64),
        (∀ i, i ∈ ranking ↔ ∃ v, counts .moisture i v) ∧
        ranking.Pairwise (fun i j => value j < value i ∨ (value j = value i ∧ i.val < j.val)) ∧
        a.count = ranking.length ∧ a.blind = decide (ranking.length < items.nmin) ∧
        a.contributing = (if ranking.length < items.nmin then [] else ranking.take items.k) ∧
        (a.contributing = [] → a.cmc = none) ∧
        (a.contributing ≠ [] →
          ∃ flag : Bool,
            a.cmc =
              some
                { value := (2 * total a.contributing + a.contributing.length) / (2 * a.contributing.length)
                  aboveRange := flag } ∧
            (flag = true ↔ ∃ i ∈ a.contributing, ∃ r, p.records.get i = some r ∧ r.flags.aboveRange = true)) ∧
        (ranking = [] → a.dmc = none) ∧
        (∀ d, a.dmc = some d ↔ (∃ i ∈ ranking, value i = d) ∧ ∀ i ∈ ranking, d ≤ value i)) ∧
      (∃ wood : List (Fin 64),
        wood.Nodup ∧ (∀ i, i ∈ wood ↔ ∃ v, counts .woodTemp i v) ∧ (wood = [] → a.zwt = none) ∧
        (wood ≠ [] → 0 ≤ total wood → a.zwt = some ((2 * total wood + wood.length) / (2 * wood.length))) ∧
        (total wood < 0 → a.zwt = some (-((-(2 * total wood) + wood.length) / (2 * wood.length))))) ∧
      p.replaceAggregate z =
        (p.put z { p.unit z with aggregate := a }).raiseIf
          ((!(p.unit z).aggregate.blind && a.blind) && decide ((p.ctx z).state ≠ .idle)) (.zone z .probeShortage)

/-- The choice of a grant (R17, R18): in EQUAL mode the first present requester after the rotation pointer in the cyclic order
A, B, C, D, spot; in FAVOR mode the four rows of the table, with the favoured zone left out of the rotation. -/
def Obligations.ArbiterRule : Prop :=
  ∀ p : Plant,
    let present (r : Requester) := p.requests r = true
    let distance (r : Requester) := (r.place + 4 - p.arbiter.pointer.place) % 5
    let first (among : Requester → Prop) (r : Requester) :=
      among r ∧ present r ∧ ∀ x, among x → present x → distance r ≤ distance x
    let scan := p.work.config.scan
    let favoured : Requester := .zone scan.favoured
    let turn := p.arbiter.turn
    (∀ z, present (.zone z) ↔ (p.unit z).pass.progress.isSome = true) ∧
    (present .spot ↔ (∃ i, p.spot = .waiting i) ∧ scan.spotEnabled = true) ∧
    ((∀ r, ¬present r) → p.choose = none) ∧
    (scan.mode = .equal →
      ∀ r, first (fun _ => True) r → p.choose = some (r, { pointer := r, turn := turn })) ∧
    (scan.mode = .favor →
      (turn = .favoured → present favoured →
        p.choose = some (favoured, { pointer := p.arbiter.pointer, turn := .others })) ∧
      (turn = .favoured → ¬present favoured →
        ∀ r, first (· ≠ favoured) r → p.choose = some (r, { pointer := r, turn := .favoured })) ∧
      (turn = .others →
        (∀ r, first (· ≠ favoured) r → p.choose = some (r, { pointer := r, turn := .favoured })) ∧
        (present favoured → (∀ r, r ≠ favoured → ¬present r) →
          p.choose = some (favoured, { pointer := p.arbiter.pointer, turn := .others }))))

/-! ### The group -/

/-- GO naming a member (R105 to R107): every IDLE member is taken; one with a finding fails its start, GROUP its source where
GO does not name it; the others enter STARTING together, on the group start timeout that runs already or starts now; and once
the conditions of each have been evaluated the group is judged: where every member in STARTING is ready, all enter their first
phases in the event and the timeout stops. No other zone changes. The same taking by LINE and TIMER is in LineDeliveryRule and
DelayedStartRule; the completion at a later sample, pass, door, proof, AB or configuration is in the rules of those events
(ClimateSampleRule, MeasurementRule, PassTimerRule, LineDeliveryRule, AbortAndClearRule, KilnWriteRule, ZoneItemsWriteRule).
The order of the members in a group's entry is the model's choice, log entry 32. -/
def Obligations.GroupStartRule : Prop :=
  ∀ (s : State) (env : Envelope) (z : Zone), s.Ready .go →
    let p := s.plant
    p.fieldEnabled = true → (p.work.config.zones.get z).startMask.host = true →
    (p.work.config.zones.get z).grouped = true → (p.ctx z).state = .idle → p.validate z = none →
      ∃ q : Plant,
        exec (.startZone env z.code) s = .next (s.answered .go env (settle p q) { status := .ok }) ∧
        p.SameBeyondZones q ∧ p.GroupStarted q .host fun y => y = z

/-- Hold-together, lockstep and detach (R109 to R112). HD on a member that runs reaches every member that runs: HOST joins the
hold-cause set of each. RM reaches every member that is in HELD or hold-pending: HOST leaves the set of each, and where no cause
is left it returns to its phase, or is hold-pending no longer, and is evaluated. After either the release is judged once. A
member in DRYING that SK makes eligible waits with its reason and the release is judged; where every member of the lockstep set
waits, each advances with its own reason to its own following record. At a minute expiry a waiting member's clocks and wait count
advance, its periodic checkpoint is queued and its fan's minute counts; and past the wait limit it detaches and advances alone,
after which the release is judged among the members left. That the named zone is treated first, then the others in the order of
their codes, is the model's choice, log entry 32. That the ramp of a return starts before the zone is evaluated, and that an
advance within the phase in such an event raises STEP_ADVANCED, is its reading, log entries 21 and 15. -/
def Obligations.LockstepRule : Prop :=
  ∀ (s : State) (env : Envelope) (z : Zone),
    let p := s.plant
    let u := p.unit z
    let grouped (y : Zone) := (p.work.config.zones.get y).grouped = true
    let runs (y : Zone) := (p.ctx y).state = .held ∨ (p.ctx y).state.inPhase = true
    let lined (y : Zone) (host : Bool) : HoldCauses := { host := host, line := (p.ctx y).holds.line }
    let order := z :: everyZone.filter (· != z)
    (s.Ready .hd → runs z → grouped z → p.work.config.group.holdTogether = true →
      ∃ r q : Plant,
        exec (.hold env z.code) s = .next (s.answered .hd env (settle p q) { status := .ok }) ∧
        Plant.Chain
          (fun y x x' => (¬(grouped y ∧ runs y) → x' = x) ∧ (grouped y → runs y → x.HoldGained x' y (lined y true)))
          order p r ∧
        r.Released q) ∧
    (s.Ready .rm → p.fieldEnabled = true → runs z → grouped z → p.work.config.group.holdTogether = true →
      let affected (y : Zone) := grouped y ∧ ((p.ctx y).state = .held ∨
        ((p.ctx y).state.inPhase = true ∧ (p.ctx y).holdPending = true))
      ∃ r q : Plant,
        exec (.resume env z.code) s = .next (s.answered .rm env (settle p q) { status := .ok }) ∧
        Plant.Chain
          (fun y x x' => (¬affected y → x' = x) ∧ (affected y → x.HoldLeft x' y (lined y false))) order p r ∧
        r.Released q) ∧
    (s.Ready .sk → p.InStep z → u.ctx.state.inPhase = true → u.ctx.holdPending = false →
      ∃ q : Plant,
        exec (.skip env z.code) s = .next (s.answered .sk env (settle p q) { status := .ok }) ∧
        (p.put z
          { u with
            ctx :=
              { u.ctx with
                eligible := some .skipped
                waiting := true
                waitCount := if u.ctx.waiting then u.ctx.waitCount else 0 } }).Released q) ∧
    (s.mode = .running → u.ctx.minuteTimer.isSome = true → u.ctx.state.inPhase = true → u.ctx.waiting = true →
      let v : ZoneUnit :=
        { u with
          ctx :=
            { u.ctx with
              minuteTimer := some 60000
              stepClock := min 65535 (u.ctx.stepClock + 1)
              runClock := min 65535 (u.ctx.runClock + 1)
              checkpointCount := if u.ctx.checkpointCount + 1 < 30 then u.ctx.checkpointCount + 1 else 0 } }
      let clocked : Plant :=
        if u.ctx.checkpointCount + 1 < 30 then p.put z v else (p.put z v).enqueue (.checkpoint z v.checkpoint)
      let count := min 1441 (u.ctx.waitCount + 1)
      let limit := p.work.config.group.waitLimit
      let counted : Plant := clocked.put z { v with ctx := { v.ctx with waitCount := count } }
      let detached : Plant :=
        (clocked.put z
          { v with ctx := { v.ctx with waitCount := count, detached := true, waiting := false } }).raise
            (.zone z .groupDetached)
      ∃ r q : Plant,
        exec (.minuteTimerExpiry z) s = .next (s.moved q) ∧ r.FanMinute q z ∧
        (limit = 0 ∨ count ≤ limit → r = counted) ∧
        ∀ reason, limit ≠ 0 → limit < count → u.ctx.eligible = some reason →
          ∃ x : Plant, detached.Advances x z reason ∧ x.Released r)

/-! ### The end of an event -/

/-- What follows at the end of an event that made `q` of `p` (R126, R137, R147, R151, R179): ATTN# is asserted while the alert
set is not empty; a line that is an output drives its latch, or its safe level while the field is disabled and keep is no,
converted by its polarity, and an input stands at the level applied from outside; the proof timer of a zone starts where it
should run and did not, and stops where it should no longer, which each clears the overdue mark; nothing else changes but the
zone pins. An output line counts as settled, the model's reading, log entry 19. -/
def Obligations.SettleRule : Prop :=
  ∀ p q : Plant,
    let runs (x : Plant) (z : Zone) :=
      x.fieldEnabled = true ∧
        (match (x.unit z).output.overrides.fanRun with
         | .on => True
         | .off => False
         | .auto => (x.unit z).output.fan.machine = .runFwd ∨ (x.unit z).output.fan.machine = .runRev) ∧
        (x.unit z).output.fan.machine ≠ .dwellToRev ∧ (x.unit z).output.fan.machine ≠ .dwellToFwd ∧
        ¬∃ i, (x.work.config.lines.get i).role = .fanProof ∧ (x.work.config.lines.get i).zone = z ∧
          (x.lines.get i).debounced = true
    (settle p q).alerts = q.alerts ∧ (settle p q).attn = !q.alerts.isEmpty ∧ q.SameBeyondZones (settle p q) ∧
    (settle p q).queue = q.queue ∧ (settle p q).groupTimeout = q.groupTimeout ∧
    (∀ i,
      let c := q.work.config.lines.get i
      let l := q.lines.get i
      let drive := if q.fieldEnabled = true ∨ c.keep = true then l.latch else c.safeActive
      ((c.role = .alarmOut ∨ c.role = .generalOut) →
        (settle p q).lines.get i =
          { latch := l.latch, external := l.external, pin := if c.polarity = .activeHigh then drive else !drive,
            debounced := drive, settled := true, timer := none }) ∧
      (¬(c.role = .alarmOut ∨ c.role = .generalOut) → (settle p q).lines.get i = { l with pin := l.external })) ∧
    ∀ z, ∃ pins : ZonePins,
      let after (overdue : Bool) (timer : Timer) : ZoneUnit :=
        { q.unit z with
          proofOverdue := overdue
          output := { (q.unit z).output with proofTimer := timer, pins := pins } }
      (¬runs p z → runs q z →
        (settle p q).unit z = after false (some ((q.work.config.zones.get z).proofDelay * 1000))) ∧
      (runs p z → ¬runs q z → (settle p q).unit z = after false none) ∧
      ((runs p z ↔ runs q z) →
        (settle p q).unit z = after (q.unit z).proofOverdue (q.unit z).output.proofTimer) ∧
      (q.shouldRun z = true ↔ runs q z)

/-! ### Laws that every step keeps -/

/-- R129: from every state in which the pins follow, each step leaves the five pins of every zone at the levels of the table
while the part runs, and off in reset and without supply. So SPRAY and VENT of a zone are never on together, and HEAT and
SPRAY are off while the field is disabled or the zone is in SAFE. -/
def Obligations.ZonePinsLaw : Prop :=
  ∀ s t : State, s.PinsLawful → step s = .next t →
    t.PinsLawful ∧
    (t.mode ≠ .running → ∀ z, (t.plant.unit z).output.pins = {}) ∧
    (t.mode = .running → ∀ z,
      let u := t.plant.unit z
      let o := u.output
      let level (e : OverrideEntry) (automatic : Prop) : Prop :=
        match e with
        | .on => True
        | .off => False
        | .auto => automatic
      let safe := u.ctx.state = .safe
      let field := t.plant.fieldEnabled = true
      (o.pins.heat = true ↔ ¬safe ∧ field ∧ level o.overrides.heat (o.heat.level = true)) ∧
      (o.pins.spray = true ↔
        ¬safe ∧ field ∧ level o.overrides.spray (o.overrides.vent ≠ .on ∧ o.spray.level = true)) ∧
      (o.pins.vent = true ↔
        field ∧
          level o.overrides.vent
            ((safe → t.plant.work.config.kiln.safeVent = .open) ∧
              (¬safe → o.overrides.spray ≠ .on ∧ o.vent.level = true))) ∧
      (o.pins.fanRun = true ↔
        field ∧ level o.overrides.fanRun (o.fan.machine = .runFwd ∨ o.fan.machine = .runRev)) ∧
      (o.pins.fanDir = true ↔ field ∧ level o.overrides.fanDir (o.fan.direction = .reverse)) ∧
      ¬(o.pins.spray = true ∧ o.pins.vent = true) ∧
      (safe ∨ ¬field → o.pins.heat = false ∧ o.pins.spray = false))

/-- No step breaks the form of the alert set, in which no pair stands twice and of which ATTN# tells whether it is empty
(R179, R180), nor the form of the store write queue, which holds a host item exactly while its request waits for the write
(R158, R159, R172), and which is empty, with no request unanswered, while the part does not run (R162, R183). -/
def Obligations.AlertAndQueueLaws : Prop :=
  ∀ s t : State, step s = .next t →
    (s.plant.AlertsLawful → t.plant.AlertsLawful) ∧ (s.QueueLawful → t.QueueLawful)

/-- No step breaks the form of a zone: an underlying phase in HELD and SAFE alone, and safe causes in SAFE alone (R73, R133);
nor the bounds of the counts (R97, R104, R125, R171). A gate that is BARRED stays BARRED until a power-on reset (R177). -/
def Obligations.ZoneAndGateLaws : Prop :=
  ∀ s t : State, step s = .next t →
    ((∀ z, (s.plant.unit z).Consistent) → ∀ z, (t.plant.unit z).Consistent) ∧ (s.Bounded → t.Bounded) ∧
      (s.link.gate = .barred → (∀ rest, s.pending ≠ .powerOnReset :: rest) → t.link.gate = .barred)

/-- No step breaks the law that every MC value in a runtime record lies within its entry's curve, with the curves legal (R31,
R33), or the law that no two assigned entries hold one address (R2), in the working copies and in the store. -/
def Obligations.ProbeLaws : Prop :=
  ∀ s t : State, step s = .next t →
    (s.plant.CurvesLawful → t.plant.CurvesLawful) ∧ (s.plant.AddressesLawful → t.plant.AddressesLawful)

/-- The front end is never left free while a requester is present (R16): the law holds after every step from a state in which
it holds. -/
def Obligations.NoRequesterLeft : Prop :=
  ∀ s t : State, step s = .next t →
    let served (p : Plant) := (∃ r, p.requests r = true) → p.frontEnd.inFlight.isSome = true
    served s.plant → served t.plant
end

