-- ==== Sys2Proof/Laws/State.lean ====
section
/-! SUPPORT. The small lemmas of the containers and of the record updates: reading a cell after writing one, and the fields
that each update of the plant leaves as they were. -/

namespace Sys2Proof.Machine

/-! ### Tables -/

theorem Table.ext_get {n : Nat} {α : Type} {t u : Table n α} (h : ∀ i, t.get i = u.get i) : t = u := by
  cases t with
  | mk xs hx =>
    cases u with
    | mk ys hy =>
      have : xs = ys := by
        apply List.ext_getElem (by rw [hx, hy])
        intro i h1 h2
        have hi : i < n := by omega
        simpa [Table.get] using h ⟨i, hi⟩
      subst this
      rfl

@[simp] theorem Table.get_set_self {n : Nat} {α : Type} (t : Table n α) (i : Fin n) (x : α) : (t.set i x).get i = x := by
  simp [Table.get, Table.set]

@[simp] theorem Table.get_set_ne {n : Nat} {α : Type} (t : Table n α) {i j : Fin n} (x : α) (h : i ≠ j) :
    (t.set i x).get j = t.get j := by
  have : i.val ≠ j.val := fun e => h (Fin.ext e)
  simp [Table.get, Table.set, List.getElem_set_ne this]

theorem Table.get_set {n : Nat} {α : Type} (t : Table n α) (i j : Fin n) (x : α) :
    (t.set i x).get j = if i = j then x else t.get j := by
  split
  · next h => subst h; simp
  · next h => simp [h]

@[simp] theorem Table.get_fill {n : Nat} {α : Type} (x : α) (i : Fin n) : (Table.fill n x).get i = x := by
  simp [Table.get, Table.fill]

@[simp] theorem Table.get_tabulate {n : Nat} {α : Type} (f : Fin n → α) (i : Fin n) : (Table.tabulate n f).get i = f i := by
  simp [Table.get, Table.tabulate]

@[simp] theorem Table.get_map {n : Nat} {α β : Type} (t : Table n α) (f : α → β) (i : Fin n) :
    (t.map f).get i = f (t.get i) := by
  simp [Table.get, Table.map]

@[simp] theorem Table.set_get_self {n : Nat} {α : Type} (t : Table n α) (i : Fin n) : t.set i (t.get i) = t := by
  apply Table.ext_get
  intro j
  rw [Table.get_set]
  split
  · next h => rw [h]
  · rfl

theorem Table.mem_cells {n : Nat} {α : Type} (t : Table n α) (i : Fin n) : t.get i ∈ t.cells := List.getElem_mem _

/-! ### One value for each zone -/

@[simp] theorem PerZone.get_set_self {α : Type} (t : PerZone α) (z : Zone) (x : α) : (t.set z x).get z = x := by
  cases z <;> rfl

@[simp] theorem PerZone.get_set_ne {α : Type} (t : PerZone α) {z y : Zone} (x : α) (h : z ≠ y) :
    (t.set z x).get y = t.get y := by
  cases z <;> cases y <;> first | rfl | exact absurd rfl h

theorem PerZone.get_set {α : Type} (t : PerZone α) (z y : Zone) (x : α) :
    (t.set z x).get y = if z = y then x else t.get y := by
  split
  · next h => subst h; simp
  · next h => simp [h]

@[simp] theorem PerZone.get_tabulate {α : Type} (f : Zone → α) (z : Zone) : (PerZone.tabulate f).get z = f z := by
  cases z <;> rfl

@[simp] theorem PerZone.get_all {α : Type} (x : α) (z : Zone) : (PerZone.all x).get z = x := by cases z <;> rfl

theorem PerZone.ext_get {α : Type} {t u : PerZone α} (h : ∀ z, t.get z = u.get z) : t = u := by
  cases t with
  | mk a b c d =>
    cases u with
    | mk a' b' c' d' =>
      have ha : a = a' := h .a
      have hb : b = b' := h .b
      have hc : c = c' := h .c
      have hd : d = d' := h .d
      subst ha hb hc hd
      rfl

theorem Zone.mem_order (z : Zone) : z ∈ Zone.order := by cases z <;> decide

/-! ### A zone's unit changed -/

@[simp] theorem Plant.unit_zone_self (p : Plant) (z : Zone) (f : ZoneUnit → ZoneUnit) :
    (p.zone z f).unit z = f (p.unit z) := by
  simp [Plant.zone, Plant.unit, PerZone.modify]

@[simp] theorem Plant.unit_zone_ne (p : Plant) {z y : Zone} (f : ZoneUnit → ZoneUnit) (h : z ≠ y) :
    (p.zone z f).unit y = p.unit y := by
  simp [Plant.zone, Plant.unit, PerZone.modify, h]

theorem Plant.unit_zone (p : Plant) (z y : Zone) (f : ZoneUnit → ZoneUnit) :
    (p.zone z f).unit y = if z = y then f (p.unit z) else p.unit y := by
  split
  · next h => subst h; simp
  · next h => simp [h]

theorem Plant.ctx_eq (p : Plant) (z : Zone) : p.ctx z = (p.unit z).ctx := rfl

@[simp] theorem Plant.zone_straps (p : Plant) (z : Zone) (f) : (p.zone z f).straps = p.straps := rfl
@[simp] theorem Plant.zone_alerts (p : Plant) (z : Zone) (f) : (p.zone z f).alerts = p.alerts := rfl
@[simp] theorem Plant.zone_attn (p : Plant) (z : Zone) (f) : (p.zone z f).attn = p.attn := rfl
@[simp] theorem Plant.zone_work (p : Plant) (z : Zone) (f) : (p.zone z f).work = p.work := rfl
@[simp] theorem Plant.zone_store (p : Plant) (z : Zone) (f) : (p.zone z f).store = p.store := rfl
@[simp] theorem Plant.zone_queue (p : Plant) (z : Zone) (f) : (p.zone z f).queue = p.queue := rfl
@[simp] theorem Plant.zone_cursor (p : Plant) (z : Zone) (f) : (p.zone z f).cursor = p.cursor := rfl
@[simp] theorem Plant.zone_groupTimeout (p : Plant) (z : Zone) (f) : (p.zone z f).groupTimeout = p.groupTimeout := rfl
@[simp] theorem Plant.zone_records (p : Plant) (z : Zone) (f) : (p.zone z f).records = p.records := rfl
@[simp] theorem Plant.zone_frontEnd (p : Plant) (z : Zone) (f) : (p.zone z f).frontEnd = p.frontEnd := rfl
@[simp] theorem Plant.zone_arbiter (p : Plant) (z : Zone) (f) : (p.zone z f).arbiter = p.arbiter := rfl
@[simp] theorem Plant.zone_spot (p : Plant) (z : Zone) (f) : (p.zone z f).spot = p.spot := rfl
@[simp] theorem Plant.zone_mux (p : Plant) (z : Zone) (f) : (p.zone z f).mux = p.mux := rfl
@[simp] theorem Plant.zone_lines (p : Plant) (z : Zone) (f) : (p.zone z f).lines = p.lines := rfl
@[simp] theorem Plant.zone_delayedStart (p : Plant) (z : Zone) (f) : (p.zone z f).delayedStart = p.delayedStart := rfl
@[simp] theorem Plant.zone_lapse (p : Plant) (z : Zone) (f) : (p.zone z f).lapse = p.lapse := rfl
@[simp] theorem Plant.zone_fieldEnabled (p : Plant) (z : Zone) (f) : (p.zone z f).fieldEnabled = p.fieldEnabled := rfl
@[simp] theorem Plant.zone_items (p : Plant) (z y : Zone) (f) : (p.zone z f).items y = p.items y := rfl
@[simp] theorem Plant.zone_kiln (p : Plant) (z : Zone) (f) : (p.zone z f).kiln = p.kiln := rfl

@[simp] theorem ZoneUnit.withCtx_ctx (u : ZoneUnit) (f) : (u.withCtx f).ctx = f u.ctx := rfl
@[simp] theorem ZoneUnit.withCtx_aggregate (u : ZoneUnit) (f) : (u.withCtx f).aggregate = u.aggregate := rfl
@[simp] theorem ZoneUnit.withCtx_climate (u : ZoneUnit) (f) : (u.withCtx f).climate = u.climate := rfl
@[simp] theorem ZoneUnit.withCtx_output (u : ZoneUnit) (f) : (u.withCtx f).output = u.output := rfl
@[simp] theorem ZoneUnit.withCtx_causes (u : ZoneUnit) (f) : (u.withCtx f).causes = u.causes := rfl
@[simp] theorem ZoneUnit.withCtx_proofOverdue (u : ZoneUnit) (f) : (u.withCtx f).proofOverdue = u.proofOverdue := rfl
@[simp] theorem ZoneUnit.withCtx_pass (u : ZoneUnit) (f) : (u.withCtx f).pass = u.pass := rfl

@[simp] theorem Plant.unit_context_self (p : Plant) (z : Zone) (f) :
    (p.context z f).unit z = (p.unit z).withCtx f := by
  simp [Plant.context]

@[simp] theorem Plant.unit_context_ne (p : Plant) {z y : Zone} (f) (h : z ≠ y) : (p.context z f).unit y = p.unit y := by
  simp [Plant.context, h]

@[simp] theorem Plant.ctx_context_self (p : Plant) (z : Zone) (f) : (p.context z f).ctx z = f (p.ctx z) := by
  rw [Plant.ctx_eq, Plant.unit_context_self, ZoneUnit.withCtx_ctx, Plant.ctx_eq]

@[simp] theorem Plant.ctx_context_ne (p : Plant) {z y : Zone} (f) (h : z ≠ y) : (p.context z f).ctx y = p.ctx y := by
  rw [Plant.ctx_eq, Plant.unit_context_ne p f h, Plant.ctx_eq]

@[simp] theorem Plant.context_work (p : Plant) (z : Zone) (f) : (p.context z f).work = p.work := rfl
@[simp] theorem Plant.context_alerts (p : Plant) (z : Zone) (f) : (p.context z f).alerts = p.alerts := rfl
@[simp] theorem Plant.context_queue (p : Plant) (z : Zone) (f) : (p.context z f).queue = p.queue := rfl
@[simp] theorem Plant.context_records (p : Plant) (z : Zone) (f) : (p.context z f).records = p.records := rfl
@[simp] theorem Plant.context_lines (p : Plant) (z : Zone) (f) : (p.context z f).lines = p.lines := rfl
@[simp] theorem Plant.context_fieldEnabled (p : Plant) (z : Zone) (f) : (p.context z f).fieldEnabled = p.fieldEnabled := rfl

/-! ### An alert raised -/

@[simp] theorem Plant.raise_alerts (p : Plant) (a : Alert) : (p.raise a).alerts = insertAlert a p.alerts := rfl
@[simp] theorem Plant.raise_zones (p : Plant) (a : Alert) : (p.raise a).zones = p.zones := rfl
@[simp] theorem Plant.raise_unit (p : Plant) (a : Alert) (z : Zone) : (p.raise a).unit z = p.unit z := rfl
@[simp] theorem Plant.raise_ctx (p : Plant) (a : Alert) (z : Zone) : (p.raise a).ctx z = p.ctx z := rfl
@[simp] theorem Plant.raise_work (p : Plant) (a : Alert) : (p.raise a).work = p.work := rfl
@[simp] theorem Plant.raise_queue (p : Plant) (a : Alert) : (p.raise a).queue = p.queue := rfl
@[simp] theorem Plant.raise_records (p : Plant) (a : Alert) : (p.raise a).records = p.records := rfl
@[simp] theorem Plant.raise_lines (p : Plant) (a : Alert) : (p.raise a).lines = p.lines := rfl
@[simp] theorem Plant.raise_store (p : Plant) (a : Alert) : (p.raise a).store = p.store := rfl
@[simp] theorem Plant.raise_fieldEnabled (p : Plant) (a : Alert) : (p.raise a).fieldEnabled = p.fieldEnabled := rfl

/-! ### An item queued -/

/-- Queuing an item changes the queue alone. -/
theorem Plant.enqueue_eq (p : Plant) (x : StoreItem) : p.enqueue x = { p with queue := (p.enqueue x).queue } := by
  unfold Plant.enqueue
  split <;> rfl

@[simp] theorem Plant.enqueue_zones (p : Plant) (x : StoreItem) : (p.enqueue x).zones = p.zones := by
  rw [Plant.enqueue_eq]
@[simp] theorem Plant.enqueue_unit (p : Plant) (x : StoreItem) (z : Zone) : (p.enqueue x).unit z = p.unit z := by
  rw [Plant.enqueue_eq]; rfl
@[simp] theorem Plant.enqueue_ctx (p : Plant) (x : StoreItem) (z : Zone) : (p.enqueue x).ctx z = p.ctx z := by
  rw [Plant.enqueue_eq]; rfl
@[simp] theorem Plant.enqueue_work (p : Plant) (x : StoreItem) : (p.enqueue x).work = p.work := by
  rw [Plant.enqueue_eq]
@[simp] theorem Plant.enqueue_alerts (p : Plant) (x : StoreItem) : (p.enqueue x).alerts = p.alerts := by
  rw [Plant.enqueue_eq]
@[simp] theorem Plant.enqueue_records (p : Plant) (x : StoreItem) : (p.enqueue x).records = p.records := by
  rw [Plant.enqueue_eq]
@[simp] theorem Plant.enqueue_lines (p : Plant) (x : StoreItem) : (p.enqueue x).lines = p.lines := by
  rw [Plant.enqueue_eq]
@[simp] theorem Plant.enqueue_store (p : Plant) (x : StoreItem) : (p.enqueue x).store = p.store := by
  rw [Plant.enqueue_eq]
@[simp] theorem Plant.enqueue_fieldEnabled (p : Plant) (x : StoreItem) : (p.enqueue x).fieldEnabled = p.fieldEnabled := by
  rw [Plant.enqueue_eq]

/-! ### The state -/

@[simp] theorem State.event_pending (s : State) (f : Plant → Plant) : (s.event f).pending = s.pending := by
  unfold State.event; split <;> rfl

@[simp] theorem State.event_link (s : State) (f : Plant → Plant) : (s.event f).link = s.link := by
  unfold State.event; split <;> rfl

@[simp] theorem State.event_mode (s : State) (f : Plant → Plant) : (s.event f).mode = s.mode := by
  unfold State.event; split <;> simp_all

end Sys2Proof.Machine
end

