-- ==== Sys2Proof/Laws/Alerts.lean ====
section
/-! SUPPORT. The alert set and the store write queue: what raising an alert and queuing an item can do. -/

namespace Sys2Proof.Machine

/-! ### The alert set (R179, R180) -/

theorem Alert.rank_injective {a b : Alert} (h : a.rank = b.rank) : a = b := by
  cases a with
  | zone z k =>
    cases b with
    | zone y l => cases z <;> cases k <;> cases y <;> cases l <;> first | rfl | (exact absurd h (by decide))
    | device l => cases z <;> cases k <;> cases l <;> exact absurd h (by decide)
  | device k =>
    cases b with
    | zone y l => cases k <;> cases y <;> cases l <;> exact absurd h (by decide)
    | device l => cases k <;> cases l <;> first | rfl | (exact absurd h (by decide))

/-- An alert set after a raising holds the alert and what it held before. -/
theorem mem_insertAlert {a b : Alert} {xs : List Alert} : b ∈ insertAlert a xs ↔ b = a ∨ b ∈ xs := by
  induction xs with
  | nil => simp [insertAlert]
  | cons x xs ih =>
    unfold insertAlert
    split
    · simp
    · split
      · next h =>
        have := Alert.rank_injective h
        subst this
        simp
      · rw [List.mem_cons, ih, List.mem_cons]
        tauto

theorem insertAlert_ne_nil (a : Alert) (xs : List Alert) : insertAlert a xs ≠ [] := by
  intro h
  have : a ∈ insertAlert a xs := mem_insertAlert.2 (.inl rfl)
  rw [h] at this
  cases this

/-- A raising keeps the order of the pairs. -/
theorem AlertsSorted.insert {xs : List Alert} (h : AlertsSorted xs) (a : Alert) : AlertsSorted (insertAlert a xs) := by
  induction xs with
  | nil => exact List.pairwise_singleton _ _
  | cons x xs ih =>
    obtain ⟨hx, hxs⟩ := List.pairwise_cons.1 h
    unfold insertAlert
    split
    · next hlt =>
      refine List.pairwise_cons.2 ⟨?_, h⟩
      intro b hb
      rcases List.mem_cons.1 hb with rfl | hb
      · exact hlt
      · exact lt_trans hlt (hx b hb)
    · split
      · exact h
      · next h1 h2 =>
        refine List.pairwise_cons.2 ⟨?_, ih hxs⟩
        intro b hb
        rcases mem_insertAlert.1 hb with rfl | hb
        · omega
        · exact hx b hb

theorem AlertsSorted.filter {xs : List Alert} (h : AlertsSorted xs) (f : Alert → Bool) : AlertsSorted (xs.filter f) :=
  List.Pairwise.filter f h

/-! ### The store write queue (R158, R161) -/

theorem hostItems_append (xs ys : List StoreItem) : hostItems (xs ++ ys) = hostItems xs ++ hostItems ys := by
  induction xs with
  | nil => rfl
  | cons x xs ih => cases x <;> simp [hostItems, ih]

theorem checkpointZones_append (xs ys : List StoreItem) :
    checkpointZones (xs ++ ys) = checkpointZones xs ++ checkpointZones ys := by
  induction xs with
  | nil => rfl
  | cons x xs ih => cases x <;> simp [checkpointZones, ih]

/-- Placing a checkpoint item leaves the host items as they were. -/
theorem hostItems_place (z : Zone) (c : Checkpoint) (xs : List StoreItem) :
    hostItems (placeCheckpoint z c xs) = hostItems xs := by
  induction xs with
  | nil => rfl
  | cons x xs ih =>
    cases x with
    | host s => simp [placeCheckpoint, hostItems, ih]
    | checkpoint y d =>
      unfold placeCheckpoint
      split <;> simp [hostItems, ih]

theorem mem_checkpointZones_place {z y : Zone} {c : Checkpoint} {xs : List StoreItem} :
    y ∈ checkpointZones (placeCheckpoint z c xs) ↔ y = z ∨ y ∈ checkpointZones xs := by
  induction xs with
  | nil => simp [placeCheckpoint, checkpointZones]
  | cons x xs ih =>
    cases x with
    | host s => simpa [placeCheckpoint, checkpointZones] using ih
    | checkpoint w d =>
      unfold placeCheckpoint
      split
      · next h => subst h; simp [checkpointZones]
      · simp only [checkpointZones, List.mem_cons, ih]
        tauto

/-- Placing a checkpoint item keeps at most one item for each zone. -/
theorem nodup_checkpointZones_place {z : Zone} {c : Checkpoint} {xs : List StoreItem}
    (h : (checkpointZones xs).Nodup) : (checkpointZones (placeCheckpoint z c xs)).Nodup := by
  induction xs with
  | nil => simp [placeCheckpoint, checkpointZones]
  | cons x xs ih =>
    cases x with
    | host s => exact ih h
    | checkpoint w d =>
      obtain ⟨hw, hxs⟩ := List.nodup_cons.1 h
      unfold placeCheckpoint
      split
      · next e => subst e; exact h
      · next e =>
        refine List.nodup_cons.2 ⟨?_, ih hxs⟩
        rw [mem_checkpointZones_place]
        rintro (e' | e')
        · exact e e'
        · exact hw e'

/-- A queue after checkpoint items were queued: the host items, the form and a write in flight stay. -/
structure StoreQueue.Grown (q r : StoreQueue) : Prop where
  hosts : hostItems r.waiting = hostItems q.waiting
  formed : q.Formed → r.Formed
  flight : ∀ w, q.inFlight = some w → r.inFlight = some w
  fresh : q.inFlight = none → (r.inFlight = none ∧ r.waiting = q.waiting) ∨ ∃ z c, r.inFlight = some (.checkpoint z c)

theorem StoreQueue.Grown.refl (q : StoreQueue) : q.Grown q := ⟨rfl, id, fun _ h => h, fun h => .inl ⟨h, rfl⟩⟩

theorem StoreQueue.Grown.trans {q r t : StoreQueue} (h : q.Grown r) (k : r.Grown t) : q.Grown t where
  hosts := k.hosts.trans h.hosts
  formed x := k.formed (h.formed x)
  flight w x := k.flight w (h.flight w x)
  fresh x := by
    rcases h.fresh x with ⟨h1, h2⟩ | ⟨z, c, h1⟩
    · rcases k.fresh h1 with ⟨k1, k2⟩ | k1
      · exact .inl ⟨k1, k2.trans h2⟩
      · exact .inr k1
    · exact .inr ⟨z, c, k.flight _ h1⟩

/-- Queuing a checkpoint item. -/
theorem Plant.enqueue_checkpoint_grown (p : Plant) (z : Zone) (c : Checkpoint) :
    p.queue.Grown (p.enqueue (.checkpoint z c)).queue := by
  unfold Plant.enqueue
  split
  · next h =>
    refine ⟨rfl, fun f => ⟨f.zones, fun e => by cases e⟩, fun w hw => ?_, fun _ => .inr ⟨z, c, rfl⟩⟩
    rw [h] at hw; cases hw
  · next w h =>
    refine ⟨hostItems_place z c _, fun f => ⟨nodup_checkpointZones_place f.zones, fun e => ?_⟩, fun _ hw => hw, fun e => ?_⟩
    · change p.queue.inFlight = none at e
      rw [h] at e; cases e
    · rw [h] at e; cases e

/-- The next item of a queue of the form takes the place of the completed one, and the form stays (R158). -/
theorem Plant.completeWrite_formed {p : Plant} (h : p.queue.Formed) : p.completeWrite.queue.Formed := by
  unfold Plant.completeWrite
  split
  · exact h
  · split
    · exact ⟨List.nodup_nil, fun _ => rfl⟩
    · next x xs e =>
      have hz := h.zones
      rw [e] at hz
      refine ⟨?_, fun e => by cases e⟩
      cases x with
      | host s => exact hz
      | checkpoint z c => exact (List.nodup_cons.1 hz).2

end Sys2Proof.Machine
end

