-- ==== Sys2Proof/Laws/Put.lean ====
section
/-! SUPPORT. The shared operations in closed form: what each makes of one zone's unit, of the alert set and of the store write
queue, said once. The unit is written with `Plant.put`, alerts are raised before it and the checkpoint is queued after it. -/

namespace Sys2Proof.Machine

/-! ### A zone's unit replaced -/

theorem Plant.zone_eq_put (p : Plant) (z : Zone) (f : ZoneUnit → ZoneUnit) : p.zone z f = p.put z (f (p.unit z)) := rfl

theorem Plant.context_eq_put (p : Plant) (z : Zone) (f : ZoneContext → ZoneContext) :
    p.context z f = p.put z ((p.unit z).withCtx f) := rfl

@[simp] theorem Plant.put_unit_self (p : Plant) (z : Zone) (u : ZoneUnit) : (p.put z u).unit z = u := by
  simp [Plant.put, Plant.unit]

@[simp] theorem Plant.put_unit_ne (p : Plant) {z y : Zone} (u : ZoneUnit) (h : z ≠ y) : (p.put z u).unit y = p.unit y := by
  simp [Plant.put, Plant.unit, h]

@[simp] theorem Plant.put_ctx_self (p : Plant) (z : Zone) (u : ZoneUnit) : (p.put z u).ctx z = u.ctx := by
  simp [Plant.ctx_eq]

@[simp] theorem Plant.put_put (p : Plant) (z : Zone) (u v : ZoneUnit) : (p.put z u).put z v = p.put z v := by
  cases z <;> rfl

@[simp] theorem Plant.put_unit (p : Plant) (z : Zone) : p.put z (p.unit z) = p := by
  cases z <;> rfl

@[simp] theorem Plant.put_raise (p : Plant) (z : Zone) (u : ZoneUnit) (a : Alert) :
    (p.put z u).raise a = (p.raise a).put z u := rfl

@[simp] theorem Plant.put_work (p : Plant) (z : Zone) (u : ZoneUnit) : (p.put z u).work = p.work := rfl
@[simp] theorem Plant.put_items (p : Plant) (z y : Zone) (u : ZoneUnit) : (p.put z u).items y = p.items y := rfl
@[simp] theorem Plant.put_kiln (p : Plant) (z : Zone) (u : ZoneUnit) : (p.put z u).kiln = p.kiln := rfl
@[simp] theorem Plant.put_lines (p : Plant) (z : Zone) (u : ZoneUnit) : (p.put z u).lines = p.lines := rfl
@[simp] theorem Plant.put_alerts (p : Plant) (z : Zone) (u : ZoneUnit) : (p.put z u).alerts = p.alerts := rfl
@[simp] theorem Plant.put_queue (p : Plant) (z : Zone) (u : ZoneUnit) : (p.put z u).queue = p.queue := rfl
@[simp] theorem Plant.put_fieldEnabled (p : Plant) (z : Zone) (u : ZoneUnit) :
    (p.put z u).fieldEnabled = p.fieldEnabled := rfl
@[simp] theorem Plant.put_holdIn (p : Plant) (z : Zone) (u : ZoneUnit) : (p.put z u).holdIn = p.holdIn := rfl
@[simp] theorem Plant.put_doorOpen (p : Plant) (z : Zone) (u : ZoneUnit) : (p.put z u).doorOpen = p.doorOpen := rfl
@[simp] theorem Plant.put_proof (p : Plant) (z y : Zone) (u : ZoneUnit) : (p.put z u).proof y = p.proof y := rfl
@[simp] theorem Plant.put_grouped (p : Plant) (z y : Zone) (u : ZoneUnit) : (p.put z u).grouped y = p.grouped y := rfl

@[simp] theorem Plant.raise_kiln (p : Plant) (a : Alert) : (p.raise a).kiln = p.kiln := rfl
@[simp] theorem Plant.raise_items (p : Plant) (a : Alert) (y : Zone) : (p.raise a).items y = p.items y := rfl
@[simp] theorem Plant.raise_grouped (p : Plant) (a : Alert) (y : Zone) : (p.raise a).grouped y = p.grouped y := rfl
@[simp] theorem Plant.raise_holdIn (p : Plant) (a : Alert) : (p.raise a).holdIn = p.holdIn := rfl
@[simp] theorem Plant.raise_doorOpen (p : Plant) (a : Alert) : (p.raise a).doorOpen = p.doorOpen := rfl
@[simp] theorem Plant.raise_proof (p : Plant) (a : Alert) (y : Zone) : (p.raise a).proof y = p.proof y := rfl

@[simp] theorem Plant.enqueue_kiln (p : Plant) (x : StoreItem) : (p.enqueue x).kiln = p.kiln := by
  unfold Plant.kiln; simp
@[simp] theorem Plant.enqueue_items (p : Plant) (x : StoreItem) (y : Zone) : (p.enqueue x).items y = p.items y := by
  unfold Plant.items; simp
@[simp] theorem Plant.enqueue_grouped (p : Plant) (x : StoreItem) (y : Zone) : (p.enqueue x).grouped y = p.grouped y := by
  unfold Plant.grouped; simp
@[simp] theorem Plant.enqueue_holdIn (p : Plant) (x : StoreItem) : (p.enqueue x).holdIn = p.holdIn := by
  rw [Plant.enqueue_eq]; rfl
@[simp] theorem Plant.enqueue_doorOpen (p : Plant) (x : StoreItem) : (p.enqueue x).doorOpen = p.doorOpen := by
  rw [Plant.enqueue_eq]; rfl
@[simp] theorem Plant.enqueue_proof (p : Plant) (x : StoreItem) (y : Zone) : (p.enqueue x).proof y = p.proof y := by
  rw [Plant.enqueue_eq]; rfl

@[simp] theorem Plant.enqueue_put (p : Plant) (x : StoreItem) (z : Zone) (u : ZoneUnit) :
    (p.enqueue x).put z u = (p.put z u).enqueue x := by
  unfold Plant.enqueue Plant.put
  cases p.queue.inFlight <;> rfl

@[simp] theorem Plant.enqueue_raise (p : Plant) (x : StoreItem) (a : Alert) :
    (p.enqueue x).raise a = (p.raise a).enqueue x := by
  unfold Plant.enqueue Plant.raise
  cases p.queue.inFlight <;> rfl

/-! ### Records and checkpoints -/

/-- An appended entry (R97). -/
theorem ZoneContext.append_eq (c : ZoneContext) (e : RunEntry) : c.append e = c.gain e := by
  unfold ZoneContext.append ZoneContext.gain bump
  split <;> simp_all

theorem Plant.record_eq (p : Plant) (z : Zone) (k : RunKind) (reason : Option ExitReason) :
    p.record z k reason = p.put z { p.unit z with ctx := (p.ctx z).gain ((p.unit z).event k reason) } := by
  unfold Plant.record
  simp only [Plant.context_eq_put, ZoneUnit.withCtx, ZoneContext.append_eq]
  rfl

theorem Plant.queueCheckpoint_eq (p : Plant) (z : Zone) :
    p.queueCheckpoint z =
      (p.put z { p.unit z with ctx := { p.ctx z with checkpointCount := 0 } }).enqueue
        (.checkpoint z (p.unit z).checkpoint) := by
  unfold Plant.queueCheckpoint
  rw [Plant.context_eq_put, Plant.enqueue_put, Plant.enqueue_unit]
  rfl

/-! ### Holding -/

theorem ZoneUnit.ramping_iff (u : ZoneUnit) : u.ramping = true ↔ u.ctx.state.inPhase = true ∧ u.climate.Away := by
  unfold ZoneUnit.ramping ClimateState.offTarget ClimateState.Away
  cases u.climate.dbSetpoint <;> cases u.climate.wbSetpoint <;> simp

/-- HELD entered from phase `ph` (R91). -/
theorem Plant.enterHeld_eq (p : Plant) (z : Zone) (ph : Phase) (h : (p.ctx z).state = .phase ph) :
    p.enterHeld z =
      (p.put z ((p.unit z).heldOver ph)).enqueue (.checkpoint z ((p.unit z).heldOver ph).checkpoint) := by
  have h' : (p.unit z).ctx.state = .phase ph := h
  unfold Plant.enterHeld
  simp only [Plant.zone_eq_put, Plant.record_eq, Plant.queueCheckpoint_eq, Plant.put_put, Plant.put_unit_self,
    Plant.put_ctx_self, h', ZoneState.phase?]
  rfl

/-! ### Entries -/

theorem ClimateState.finish_eq (c : ClimateState) : c.finish = c.ended := rfl

theorem OutputState.cut_eq (o : OutputState) : o.cut = o.off := rfl

theorem FanState.rest_eq (f : FanState) : f.rest = f.rested := rfl

theorem FanState.start_eq (f : FanState) : f.start = f.running := by
  unfold FanState.start FanState.running
  cases f.direction <;> rfl

/-- IDLE entered (R75). -/
theorem Plant.enterIdle_eq (p : Plant) (z : Zone) :
    p.enterIdle z = (p.put z (p.unit z).idled).enqueue (.checkpoint z (p.unit z).idled.checkpoint) := by
  unfold Plant.enterIdle
  simp only [Plant.zone_eq_put, Plant.queueCheckpoint_eq, Plant.put_put, Plant.put_unit_self, Plant.put_ctx_self]
  rfl

theorem ClimateState.ramp_eq (c : ClimateState) (d w : Int) (hd : c.dbSetpoint = some d) (hw : c.wbSetpoint = some w) :
    c.ramp = c.started d w := by
  unfold ClimateState.ramp ClimateState.started ClimateState.arrive ClimateState.offTarget
  rw [hd, hw]
  by_cases h0 : c.rampRate = 0
  · simp [h0]
  · by_cases h1 : c.dbTarget = 60 * d <;> by_cases h2 : c.wbTarget = 60 * w <;> simp [h0, h1, h2]

theorem ClimateState.form_eq (c : ClimateState) (r : StepRecord) (m : Int) : c.form r m = c.steered r m := rfl

theorem ClimateState.measure_eq (c : ClimateState) (m : Int) : c.measure m = c.measured m := by
  unfold ClimateState.measure ClimateState.measured SensorRecord.usable clampInt
  rcases c with ⟨_, ⟨ds, dv, _⟩, ⟨ws, wv, _⟩, _, _, _, _, _, _⟩
  cases ds <;> cases dv <;> cases ws <;> cases wv <;> rfl

theorem Plant.formSetpoints_eq (p : Plant) (z : Zone) (r : StepRecord) :
    p.formSetpoints z r =
      (p.raiseIf (decide (p.kiln.maximumDb < r.db)) (.zone z .targetClamped)).put z
        { p.unit z with climate := (p.unit z).climate.steered r p.kiln.maximumDb } := by
  unfold Plant.formSetpoints Plant.raiseIf
  by_cases h : p.kiln.maximumDb < r.db <;> simp [h, Plant.climate, Plant.zone_eq_put, ClimateState.form_eq]

@[simp] theorem Plant.raiseIf_unit (p : Plant) (b : Bool) (a : Alert) (z : Zone) : (p.raiseIf b a).unit z = p.unit z := by
  unfold Plant.raiseIf; split <;> rfl
@[simp] theorem Plant.raiseIf_kiln (p : Plant) (b : Bool) (a : Alert) : (p.raiseIf b a).kiln = p.kiln := by
  unfold Plant.raiseIf; split <;> rfl
@[simp] theorem Plant.raiseIf_work (p : Plant) (b : Bool) (a : Alert) : (p.raiseIf b a).work = p.work := by
  unfold Plant.raiseIf; split <;> rfl
@[simp] theorem Plant.raiseIf_items (p : Plant) (b : Bool) (a : Alert) (z : Zone) : (p.raiseIf b a).items z = p.items z := by
  unfold Plant.raiseIf; split <;> rfl
@[simp] theorem Plant.raiseIf_holdIn (p : Plant) (b : Bool) (a : Alert) : (p.raiseIf b a).holdIn = p.holdIn := by
  unfold Plant.raiseIf; split <;> rfl
@[simp] theorem Plant.raiseIf_doorOpen (p : Plant) (b : Bool) (a : Alert) : (p.raiseIf b a).doorOpen = p.doorOpen := by
  unfold Plant.raiseIf; split <;> rfl

/-- The interval set in a zone that runs, with the dwell it may begin (R125). -/
theorem Plant.setInterval_eq (p : Plant) (z : Zone) (n : Nat) (h : (p.ctx z).state.runs = true) :
    p.setInterval z n =
      p.put z
        { p.unit z with output := (p.unit z).output.turned n (p.work.config.zones.get z).dwell } := by
  have h' : (p.unit z).ctx.state.runs = true := h
  unfold Plant.setInterval Plant.reverseIfDue Plant.beginDwell Plant.fan Plant.output OutputState.turned
  simp only [Plant.zone_eq_put, Plant.put_unit_self, Plant.put_put, ZoneUnit.reversalDue, h', Bool.true_and,
    Bool.and_eq_true, decide_eq_true_eq, bne_iff_ne, and_assoc]
  cases hm : (p.unit z).output.fan.machine <;>
    simp only [FanMachine.runs, reduceCtorEq, Bool.false_eq_true, false_and, true_and, or_false, if_false,
      or_true, if_true]
  · split <;> rfl
  · split <;> rfl

/-- Step entry from the targets as they stand (R83). -/
theorem Plant.enterStep_eq (p : Plant) (z : Zone) (ph : Phase) (i : Fin 128) (x : StepRecord)
    (hx : p.work.records.get i = some x) :
    p.enterStep z ph i .current =
      ((((p.raiseIf (decide (p.kiln.maximumDb < x.db)) (.zone z .targetClamped)).raise
          (.zone z (if (p.ctx z).state = .phase ph then .stepAdvanced else .phaseChanged))).put z
          ((p.unit z).stepped ph i x p.kiln.maximumDb (p.work.config.zones.get z).dwell)).enqueue
        (.checkpoint z ((p.unit z).stepped ph i x p.kiln.maximumDb (p.work.config.zones.get z).dwell).checkpoint)) := by
  unfold Plant.enterStep
  simp only [hx, Plant.startRamp, Plant.context_eq_put]
  rw [Plant.setInterval_eq]
  · simp only [Plant.climate, Plant.zone_eq_put, Plant.formSetpoints_eq, Plant.queueCheckpoint_eq, Plant.put_put,
      Plant.put_unit_self, Plant.put_ctx_self, Plant.put_kiln, Plant.put_raise]
    rw [ClimateState.ramp_eq _ (min x.db p.kiln.maximumDb) (min x.db p.kiln.maximumDb - x.depression) rfl rfl]
    unfold Plant.raiseIf
    by_cases h : p.kiln.maximumDb < x.db
    · simp only [h, decide_true, if_true, Plant.put_raise, Plant.put_put]
      rfl
    · simp only [h, decide_false, Bool.false_eq_true, if_false, Plant.put_raise, Plant.put_put]
      rfl
  · simp [Plant.climate, Plant.zone_eq_put, Plant.formSetpoints_eq, ZoneUnit.withCtx, ZoneState.runs]

/-- DONE entered (R89). -/
theorem Plant.enterDone_eq (p : Plant) (z : Zone) :
    p.enterDone z =
      let u := p.unit z
      let v : ZoneUnit :=
        { u with
          ctx :=
            { u.ctx.gain (u.event .done none) with
              state := .done
              underlying := none
              activeCopy := none
              eligible := none
              waiting := false
              waitCount := 0
              checkpointCount := 0 }
          climate := u.climate.ended
          output := { u.output.off with fan := u.output.fan.rested }
          causes := { door := false, sensor := false, fan := false, overtemp := false } }
      ((p.raise (.zone z .runDone)).put z v).enqueue (.checkpoint z v.checkpoint) := by
  unfold Plant.enterDone
  simp only [Plant.zone_eq_put, Plant.record_eq, Plant.queueCheckpoint_eq, Plant.put_put, Plant.put_unit_self,
    Plant.put_ctx_self, Plant.put_raise]
  rfl

/-! ### SAFE -/

theorem Plant.soundAlarm_put (p : Plant) (z : Zone) (u : ZoneUnit) : (p.put z u).soundAlarm = p.soundAlarm.put z u := rfl

theorem Plant.soundAlarm_raise (p : Plant) (a : Alert) : (p.raise a).soundAlarm = p.soundAlarm.raise a := rfl

theorem Plant.soundAlarm_enqueue (p : Plant) (x : StoreItem) : (p.enqueue x).soundAlarm = p.soundAlarm.enqueue x := by
  unfold Plant.enqueue
  have : p.soundAlarm.queue = p.queue := rfl
  rw [this]
  cases p.queue.inFlight <;> rfl

@[simp] theorem Plant.soundAlarm_unit (p : Plant) (z : Zone) : p.soundAlarm.unit z = p.unit z := rfl

theorem FanState.enterSafe_eq (f : FanState) (setting : SafeFan) :
    f.enterSafe setting =
      if setting = .stop then { f with machine := .stopped, dwellTimer := none }
      else if f.machine = .runFwd ∨ f.machine = .runRev then f
      else f.running := by
  cases setting
  · rw [← FanState.start_eq]
    unfold FanState.enterSafe
    cases h : f.machine <;> simp [FanMachine.runs]
  · rfl

/-- SAFE entered (R95, R139, R153). -/
theorem Plant.enterSafe_eq (p : Plant) (z : Zone) :
    p.enterSafe z =
      ((p.soundAlarm.raise (.zone z .safeEntered)).put z ((p.unit z).secured (p.unit z).causes p.kiln.safeFan)).enqueue
        (.checkpoint z ((p.unit z).secured (p.unit z).causes p.kiln.safeFan).checkpoint) := by
  unfold Plant.enterSafe
  simp only [Plant.zone_eq_put, Plant.record_eq, Plant.queueCheckpoint_eq, Plant.put_put, Plant.put_unit_self,
    Plant.put_ctx_self, Plant.enqueue_raise, Plant.soundAlarm_enqueue, Plant.put_raise, Plant.soundAlarm_put,
    Plant.soundAlarm_raise, FanState.enterSafe_eq]
  rfl

theorem FanState.leaveSafe_eq (f : FanState) : f.leaveSafe = if f.machine = .stopped then f.running else f := by
  unfold FanState.leaveSafe
  rw [FanState.start_eq]

/-- SAFE left into HELD with an empty cause set (R96, R140). -/
theorem Plant.exitSafe_eq (p : Plant) (z : Zone) (h : (p.unit z).causes.any = false) :
    p.exitSafe z =
      (p.put z ((p.unit z).released p.kiln.maximumDb p.holdIn)).enqueue
        (.checkpoint z ((p.unit z).released p.kiln.maximumDb p.holdIn).checkpoint) := by
  have hc : (p.unit z).causes = { door := false, sensor := false, fan := false, overtemp := false } := by
    revert h
    rcases (p.unit z).causes with ⟨a, b, c, d⟩
    cases a <;> cases b <;> cases c <;> cases d <;> simp [SafeCauses.any]
  unfold Plant.exitSafe
  simp only [Plant.zone_eq_put, Plant.record_eq, Plant.queueCheckpoint_eq, Plant.put_put, Plant.put_unit_self,
    Plant.put_ctx_self, FanState.leaveSafe_eq, ClimateState.measure_eq]
  unfold ZoneUnit.released
  rw [← hc]
  rfl

end Sys2Proof.Machine
end

