-- ==== Sys2Proof/Laws/Sequencer.lean ====
section
/-! SUPPORT. What the sequencer's operations can do to the rest of the part, said once: they leave the stored content, the
probes, the scanner, the delayed start, the overrides and the samples as they were; they raise alerts, queue checkpoints, set
ALARM_OUT latches and cut pulse periods. -/

namespace Sys2Proof.Machine

/-! ### One zone -/

/-- What a zone keeps through every operation of the sequencer. -/
structure ZoneUnit.Kept (u v : ZoneUnit) : Prop where
  aggregate : v.aggregate = u.aggregate
  pass : v.pass = u.pass
  overrides : v.output.overrides = u.output.overrides
  pulseTimer : v.output.pulseTimer = u.output.pulseTimer
  pins : v.output.pins = u.output.pins
  proofTimer : v.output.proofTimer = u.output.proofTimer
  proofOverdue : v.proofOverdue = u.proofOverdue
  sampleTimer : v.climate.sampleTimer = u.climate.sampleTimer
  db : v.climate.db = u.climate.db
  wb : v.climate.wb = u.climate.wb
  timed :
    (v.output.heat = u.output.heat ∧ v.output.spray = u.output.spray ∧ v.output.vent = u.output.vent) ∨
      (v.output.heat = {} ∧ v.output.spray = {} ∧ v.output.vent = {})

theorem ZoneUnit.Kept.refl (u : ZoneUnit) : u.Kept u :=
  ⟨rfl, rfl, rfl, rfl, rfl, rfl, rfl, rfl, rfl, rfl, .inl ⟨rfl, rfl, rfl⟩⟩

theorem ZoneUnit.Kept.trans {u v w : ZoneUnit} (h : u.Kept v) (k : v.Kept w) : u.Kept w where
  aggregate := k.aggregate.trans h.aggregate
  pass := k.pass.trans h.pass
  overrides := k.overrides.trans h.overrides
  pulseTimer := k.pulseTimer.trans h.pulseTimer
  pins := k.pins.trans h.pins
  proofTimer := k.proofTimer.trans h.proofTimer
  proofOverdue := k.proofOverdue.trans h.proofOverdue
  sampleTimer := k.sampleTimer.trans h.sampleTimer
  db := k.db.trans h.db
  wb := k.wb.trans h.wb
  timed := by
    rcases k.timed with ⟨a, b, c⟩ | k'
    · rcases h.timed with ⟨a', b', c'⟩ | ⟨a', b', c'⟩
      · exact .inl ⟨a.trans a', b.trans b', c.trans c'⟩
      · exact .inr ⟨a.trans a', b.trans b', c.trans c'⟩
    · exact .inr k'

/-- A change of the context alone. -/
theorem ZoneUnit.Kept.withCtx (u : ZoneUnit) (f : ZoneContext → ZoneContext) : u.Kept (u.withCtx f) :=
  ⟨rfl, rfl, rfl, rfl, rfl, rfl, rfl, rfl, rfl, rfl, .inl ⟨rfl, rfl, rfl⟩⟩

/-! ### The plant -/

/-- What the plant keeps through every operation of the sequencer. -/
structure Plant.Kept (p q : Plant) : Prop where
  straps : q.straps = p.straps
  work : q.work = p.work
  store : q.store = p.store
  cursor : q.cursor = p.cursor
  records : q.records = p.records
  frontEnd : q.frontEnd = p.frontEnd
  arbiter : q.arbiter = p.arbiter
  spot : q.spot = p.spot
  mux : q.mux = p.mux
  delayedStart : q.delayedStart = p.delayedStart
  lapse : q.lapse = p.lapse
  fieldEnabled : q.fieldEnabled = p.fieldEnabled
  attn : q.attn = p.attn
  lines : ∀ i, q.lines.get i = p.lines.get i ∨ q.lines.get i = { p.lines.get i with latch := true }
  alerts : ∀ a ∈ p.alerts, a ∈ q.alerts
  sorted : AlertsSorted p.alerts → AlertsSorted q.alerts
  queue : p.queue.Grown q.queue
  units : ∀ z, (p.unit z).Kept (q.unit z)

theorem Plant.Kept.refl (p : Plant) : p.Kept p :=
  ⟨rfl, rfl, rfl, rfl, rfl, rfl, rfl, rfl, rfl, rfl, rfl, rfl, rfl, fun _ => .inl rfl, fun _ h => h, id, .refl _,
    fun _ => .refl _⟩

theorem Plant.Kept.trans {p q r : Plant} (h : p.Kept q) (k : q.Kept r) : p.Kept r where
  straps := k.straps.trans h.straps
  work := k.work.trans h.work
  store := k.store.trans h.store
  cursor := k.cursor.trans h.cursor
  records := k.records.trans h.records
  frontEnd := k.frontEnd.trans h.frontEnd
  arbiter := k.arbiter.trans h.arbiter
  spot := k.spot.trans h.spot
  mux := k.mux.trans h.mux
  delayedStart := k.delayedStart.trans h.delayedStart
  lapse := k.lapse.trans h.lapse
  fieldEnabled := k.fieldEnabled.trans h.fieldEnabled
  attn := k.attn.trans h.attn
  lines i := by
    rcases k.lines i with e | e <;> rcases h.lines i with e' | e' <;> rw [e'] at e
    · exact .inl e
    · exact .inr e
    · exact .inr e
    · exact .inr e
  alerts a ha := k.alerts a (h.alerts a ha)
  sorted hs := k.sorted (h.sorted hs)
  queue := h.queue.trans k.queue
  units z := (h.units z).trans (k.units z)

/-- A change of one zone's unit. -/
theorem Plant.Kept.zone (p : Plant) (z : Zone) (f : ZoneUnit → ZoneUnit) (h : (p.unit z).Kept (f (p.unit z))) :
    p.Kept (p.zone z f) where
  straps := rfl
  work := rfl
  store := rfl
  cursor := rfl
  records := rfl
  frontEnd := rfl
  arbiter := rfl
  spot := rfl
  mux := rfl
  delayedStart := rfl
  lapse := rfl
  fieldEnabled := rfl
  attn := rfl
  lines _ := .inl rfl
  alerts _ ha := ha
  sorted := id
  queue := .refl _
  units y := by
    rw [Plant.unit_zone]
    split
    · next e => subst e; exact h
    · exact .refl _

theorem Plant.Kept.context (p : Plant) (z : Zone) (f : ZoneContext → ZoneContext) : p.Kept (p.context z f) :=
  .zone p z _ (.withCtx _ f)

theorem Plant.Kept.raise (p : Plant) (a : Alert) : p.Kept (p.raise a) :=
  { Plant.Kept.refl p with
    alerts := fun _ hb => mem_insertAlert.2 (.inr hb)
    sorted := fun h => h.insert a
    units := fun _ => .refl _
    lines := fun _ => .inl rfl
    queue := .refl _ }

theorem Plant.Kept.enqueue (p : Plant) (z : Zone) (c : Checkpoint) : p.Kept (p.enqueue (.checkpoint z c)) := by
  have hq := p.enqueue_checkpoint_grown z c
  rw [Plant.enqueue_eq] at hq ⊢
  exact
    { Plant.Kept.refl p with
      queue := hq
      units := fun _ => .refl _
      lines := fun _ => .inl rfl
      alerts := fun _ h => h
      sorted := id }

theorem Plant.Kept.queueCheckpoint (p : Plant) (z : Zone) : p.Kept (p.queueCheckpoint z) :=
  (Plant.Kept.enqueue p z _).trans (.context _ z _)

theorem Plant.Kept.record (p : Plant) (z : Zone) (k : RunKind) (reason : Option ExitReason) :
    p.Kept (p.record z k reason) := .context p z _

theorem Plant.Kept.groupTimeout (p : Plant) (t : Timer) : p.Kept { p with groupTimeout := t } :=
  { Plant.Kept.refl p with
    units := fun _ => .refl _
    lines := fun _ => .inl rfl
    alerts := fun _ h => h
    sorted := id
    queue := .refl _ }

theorem Plant.Kept.foldl {α : Type} (f : Plant → α → Plant) (hf : ∀ (p : Plant) (x : α), p.Kept (f p x)) (xs : List α)
    (p : Plant) :
    p.Kept (xs.foldl f p) := by
  induction xs generalizing p with
  | nil => exact .refl _
  | cons x xs ih => exact (hf p x).trans (ih _)

theorem Plant.Kept.ite {p q r : Plant} {c : Prop} [Decidable c] (h : p.Kept q) (k : p.Kept r) :
    p.Kept (if c then q else r) := by
  split <;> assumption

/-! ### Climate and outputs -/

theorem Plant.Kept.climate (p : Plant) (z : Zone) (f : ClimateState → ClimateState)
    (h : ∀ c, (f c).sampleTimer = c.sampleTimer ∧ (f c).db = c.db ∧ (f c).wb = c.wb) : p.Kept (p.climate z f) :=
  .zone p z _ ⟨rfl, rfl, rfl, rfl, rfl, rfl, rfl, (h _).1, (h _).2.1, (h _).2.2, .inl ⟨rfl, rfl, rfl⟩⟩

theorem ClimateState.arrive_kept (c : ClimateState) :
    c.arrive.sampleTimer = c.sampleTimer ∧ c.arrive.db = c.db ∧ c.arrive.wb = c.wb := by
  unfold ClimateState.arrive; split <;> exact ⟨rfl, rfl, rfl⟩

theorem ClimateState.ramp_kept (c : ClimateState) :
    c.ramp.sampleTimer = c.sampleTimer ∧ c.ramp.db = c.db ∧ c.ramp.wb = c.wb := by
  unfold ClimateState.ramp
  split
  · exact c.arrive_kept
  · split <;> exact ⟨rfl, rfl, rfl⟩

theorem Plant.Kept.formSetpoints (p : Plant) (z : Zone) (r : StepRecord) : p.Kept (p.formSetpoints z r) := by
  have h : p.Kept (p.climate z fun c => c.form r p.kiln.maximumDb) := .climate p z _ fun _ => ⟨rfl, rfl, rfl⟩
  unfold Plant.formSetpoints
  exact .ite (h.trans (.raise _ _)) h

theorem Plant.Kept.fan (p : Plant) (z : Zone) (f : FanState → FanState) : p.Kept (p.fan z f) :=
  .zone p z _ ⟨rfl, rfl, rfl, rfl, rfl, rfl, rfl, rfl, rfl, rfl, .inl ⟨rfl, rfl, rfl⟩⟩

theorem Plant.Kept.beginDwell (p : Plant) (z : Zone) : p.Kept (p.beginDwell z) :=
  .zone p z _ ⟨rfl, rfl, rfl, rfl, rfl, rfl, rfl, rfl, rfl, rfl, .inr ⟨rfl, rfl, rfl⟩⟩

theorem Plant.Kept.reverseIfDue (p : Plant) (z : Zone) : p.Kept (p.reverseIfDue z) := .ite (.beginDwell p z) (.refl p)

theorem Plant.Kept.setInterval (p : Plant) (z : Zone) (n : Nat) : p.Kept (p.setInterval z n) :=
  (Plant.Kept.fan p z _).trans (.reverseIfDue _ z)

theorem Plant.Kept.fanMinute (p : Plant) (z : Zone) : p.Kept (p.fanMinute z) :=
  .ite ((Plant.Kept.fan p z _).trans (.reverseIfDue _ z)) (.refl p)

/-! ### Holding -/

theorem Plant.Kept.enterHeld (p : Plant) (z : Zone) : p.Kept (p.enterHeld z) :=
  ((Plant.Kept.zone p z _ ⟨rfl, rfl, rfl, rfl, rfl, rfl, rfl, rfl, rfl, rfl, .inl ⟨rfl, rfl, rfl⟩⟩).trans
    (.record _ z _ _)).trans (.queueCheckpoint _ z)

theorem Plant.Kept.applyHold (p : Plant) (z : Zone) : p.Kept (p.applyHold z) := .ite (.context p z _) (.enterHeld p z)

theorem Plant.Kept.joinHold (p : Plant) (z : Zone) (f : HoldCauses → HoldCauses) : p.Kept (p.joinHold z f) := by
  have h := Plant.Kept.context p z fun c => { c with holds := f c.holds }
  unfold Plant.joinHold
  dsimp only
  split
  · exact .ite (h.trans (.applyHold _ z)) h
  · exact h
  · exact .refl p

theorem Plant.Kept.rampComplete (p : Plant) (z : Zone) : p.Kept (p.rampComplete z) := .ite (.enterHeld p z) (.refl p)

theorem Plant.Kept.reportRamp {before p : Plant} (z : Zone) (h : before.Kept p) : before.Kept (before.reportRamp p z) :=
  .ite (h.trans (.rampComplete p z)) h

/-! ### Entries -/

theorem Plant.Kept.enterIdle (p : Plant) (z : Zone) : p.Kept (p.enterIdle z) :=
  (Plant.Kept.zone p z _ ⟨rfl, rfl, rfl, rfl, rfl, rfl, rfl, rfl, rfl, rfl, .inr ⟨rfl, rfl, rfl⟩⟩).trans
    (.queueCheckpoint _ z)

theorem Plant.Kept.enterDone (p : Plant) (z : Zone) : p.Kept (p.enterDone z) :=
  (((Plant.Kept.zone p z _ ⟨rfl, rfl, rfl, rfl, rfl, rfl, rfl, rfl, rfl, rfl, .inr ⟨rfl, rfl, rfl⟩⟩).trans
    (.record _ z _ _)).trans (.raise _ _)).trans (.queueCheckpoint _ z)

theorem Plant.Kept.startRamp (p : Plant) (z : Zone) (r : StepRecord) (start : RampFrom) :
    p.Kept (p.startRamp z r start) := by
  refine (Plant.Kept.formSetpoints p z r).trans (.climate _ z _ fun c => ?_)
  cases start with
  | current => exact c.ramp_kept
  | measured => exact (c.measure p.kiln.maximumDb).ramp_kept

theorem Plant.Kept.enterStep (p : Plant) (z : Zone) (ph : Phase) (i : Fin 128) (start : RampFrom) :
    p.Kept (p.enterStep z ph i start) := by
  unfold Plant.enterStep
  dsimp only
  refine Plant.Kept.trans ?_ (.queueCheckpoint _ z)
  refine Plant.Kept.trans ?_ (.raise _ _)
  split
  · exact ((Plant.Kept.context p z _).trans (.startRamp _ z _ start)).trans (.setInterval _ z _)
  · exact .context p z _

/-! ### Advance -/

theorem Plant.Kept.advance (p : Plant) (z : Zone) : p.Kept (p.advance z) := by
  unfold Plant.advance
  dsimp only
  split
  · have h : p.Kept
        (if (p.ctx z).eligible = some .maxTime then
          (p.record z .stepLeft (p.ctx z).eligible).raise (.zone z .forcedAdvance)
        else p.record z .stepLeft (p.ctx z).eligible) :=
      .ite ((Plant.Kept.record p z _ _).trans (.raise _ _)) (.record p z _ _)
    split
    · exact h.trans (.enterStep _ z _ _ _)
    · exact h.trans (.enterDone _ z)
  · exact .refl p

theorem Plant.Kept.judgeRelease (p : Plant) : p.Kept p.judgeRelease :=
  .ite (.foldl _ (fun q z => .advance q z) _ p) (.refl p)

theorem Plant.Kept.becomeEligible (p : Plant) (z : Zone) (reason : ExitReason) : p.Kept (p.becomeEligible z reason) := by
  have h := Plant.Kept.context p z fun c => { c with eligible := some reason }
  unfold Plant.becomeEligible
  exact .ite (.ite h (h.trans (.context _ z _))) (h.trans (.advance _ z))

theorem Plant.Kept.evaluateAlone (p : Plant) (z : Zone) : p.Kept (p.evaluateAlone z) := by
  unfold Plant.evaluateAlone
  dsimp only
  split
  · split
    · exact .refl p
    · split
      · exact .becomeEligible p z _
      · exact .refl p
  · exact .refl p

theorem Plant.Kept.evaluate (p : Plant) (z : Zone) : p.Kept (p.evaluate z) :=
  (Plant.Kept.evaluateAlone p z).trans (.judgeRelease _)

/-! ### Leaving a hold -/

theorem Plant.Kept.returnToPhase (p : Plant) (z : Zone) : p.Kept (p.returnToPhase z) := by
  unfold Plant.returnToPhase
  split
  · exact .refl p
  · have hr := (p.unit z).climate.ramp_kept
    exact
      (((Plant.Kept.zone p z _
        ⟨rfl, rfl, rfl, rfl, rfl, rfl, rfl, hr.1, hr.2.1, hr.2.2, .inl ⟨rfl, rfl, rfl⟩⟩).trans (.record _ z _ _)).trans
          (.queueCheckpoint _ z)).trans (.evaluateAlone _ z)

theorem Plant.Kept.leaveHold (p : Plant) (z : Zone) (f : HoldCauses → HoldCauses) : p.Kept (p.leaveHold z f) := by
  have h := Plant.Kept.context p z fun c => { c with holds := f c.holds }
  unfold Plant.leaveHold
  dsimp only
  split
  · exact .ite h (h.trans (.returnToPhase _ z))
  · exact .ite ((h.trans (.context _ z _)).trans (.evaluateAlone _ z)) h
  · exact .refl p

/-! ### SAFE -/

theorem Plant.Kept.soundAlarm (p : Plant) : p.Kept p.soundAlarm :=
  { Plant.Kept.refl p with
    lines := fun i => by
      simp only [Plant.soundAlarm, Table.get_tabulate]
      split
      · exact .inr rfl
      · exact .inl rfl
    units := fun _ => .refl _
    alerts := fun _ h => h
    sorted := id
    queue := .refl _ }

theorem Plant.Kept.enterSafe (p : Plant) (z : Zone) : p.Kept (p.enterSafe z) :=
  ((((Plant.Kept.zone p z _ ⟨rfl, rfl, rfl, rfl, rfl, rfl, rfl, rfl, rfl, rfl, .inr ⟨rfl, rfl, rfl⟩⟩).trans
    (.record _ z _ _)).trans (.queueCheckpoint _ z)).trans (.raise _ _)).trans (.soundAlarm _)

theorem Plant.Kept.exitSafe (p : Plant) (z : Zone) : p.Kept (p.exitSafe z) :=
  ((Plant.Kept.zone p z _ ⟨rfl, rfl, rfl, rfl, rfl, rfl, rfl, rfl, rfl, rfl, .inl ⟨rfl, rfl, rfl⟩⟩).trans
    (.record _ z _ _)).trans (.queueCheckpoint _ z)

theorem Plant.Kept.changeCauses (p : Plant) (z : Zone) (f : SafeCauses → SafeCauses) : p.Kept (p.changeCauses z f) := by
  have h : p.Kept (p.zone z fun u => { u with causes := f u.causes }) :=
    .zone p z _ ⟨rfl, rfl, rfl, rfl, rfl, rfl, rfl, rfl, rfl, rfl, .inl ⟨rfl, rfl, rfl⟩⟩
  unfold Plant.changeCauses
  dsimp only
  split
  · exact .ite (h.trans (.enterSafe _ z)) h
  · exact .ite (h.trans (.enterSafe _ z)) h
  · exact .ite (h.trans (.context _ z _)) (h.trans (.exitSafe _ z))
  · exact .refl p

theorem Plant.Kept.judgeWatched (p : Plant) (z : Zone) : p.Kept (p.judgeWatched z) := by
  unfold Plant.judgeWatched
  exact .changeCauses p z _

/-! ### Starting -/

theorem Plant.Kept.enterFirstPhase (p : Plant) (z : Zone) : p.Kept (p.enterFirstPhase z) := by
  unfold Plant.enterFirstPhase
  split
  · exact .refl p
  · next ph i _ =>
    have h := ((Plant.Kept.context p z fun c =>
      { c with startTimeout := none, ready := false, minuteTimer := some 60000 }).trans
        (.enterStep _ z ph i .measured)).trans (.record _ z .started none)
    exact (Plant.Kept.ite (h.trans (.joinHold _ z fun x => { x with line := true })) h).trans (.judgeWatched _ z)

theorem Plant.Kept.judgeGroup (p : Plant) : p.Kept p.judgeGroup := by
  unfold Plant.judgeGroup
  have h := Plant.Kept.groupTimeout p none
  exact .ite h (.ite (h.trans (.foldl _ (fun q z => .enterFirstPhase q z) _ _)) (.refl p))

theorem Plant.Kept.markReady (p : Plant) (z : Zone) : p.Kept (p.markReady z) := .context p z _

theorem Plant.Kept.evaluateStart (p : Plant) (z : Zone) : p.Kept (p.evaluateStart z) := by
  have h := Plant.Kept.markReady p z
  unfold Plant.evaluateStart
  exact .ite (.ite (h.trans (.judgeGroup _)) (.ite (h.trans (.enterFirstPhase _ z)) h)) (.refl p)

theorem Plant.Kept.putStarting (p : Plant) (z : Zone) (source : StartSource) : p.Kept (p.putStarting z source) :=
  .zone p z _ ⟨rfl, rfl, rfl, rfl, rfl, rfl, rfl, rfl, rfl, rfl, .inl ⟨rfl, rfl, rfl⟩⟩

theorem Plant.Kept.startAlone (p : Plant) (z : Zone) (source : StartSource) : p.Kept (p.startAlone z source) :=
  ((Plant.Kept.putStarting p z source).trans (.context _ z _)).trans (.evaluateStart _ z)

theorem Plant.Kept.failStart (p : Plant) (z : Zone) (f : StartFailure) : p.Kept (p.failStart z f) :=
  (Plant.Kept.context p z _).trans (.raise _ _)

theorem Plant.Kept.takeMember (p : Plant) (z : Zone) (source : StartSource) : p.Kept (p.takeMember z source) := by
  unfold Plant.takeMember
  split
  · exact .failStart p z _
  · exact .putStarting p z source

theorem Plant.Kept.groupStart (p : Plant) (source : StartSource) (initiating : Zone → Bool) :
    p.Kept (p.groupStart source initiating) := by
  unfold Plant.groupStart
  dsimp only
  have h : p.Kept
      ((Zone.order.filter fun z => p.grouped z && (p.ctx z).state == .idle).foldl
        (fun q z => q.takeMember z (if initiating z then source else .group)) p) :=
    .foldl _ (fun q z => .takeMember q z _) _ p
  refine .ite h ?_
  exact ((Plant.Kept.ite (h.trans (.groupTimeout _ _)) h).trans (.foldl _ (fun q z => .markReady q z) _ _)).trans
    (.judgeGroup _)

theorem Plant.Kept.startEvent (p : Plant) (source : StartSource) (inMask : StartMask → Bool) :
    p.Kept (p.startEvent source inMask) := by
  unfold Plant.startEvent
  dsimp only
  have h : p.Kept
      ((Zone.order.filter fun z => ((p.ctx z).state == .idle && inMask (p.items z).startMask) && !p.grouped z).foldl
        (fun q z =>
          match p.startObstacle z source with
          | some f => q.failStart z f
          | none => q.startAlone z source) p) := by
    refine .foldl _ (fun q z => ?_) _ p
    split
    · exact .failStart q z _
    · exact .startAlone q z source
  exact .ite (h.trans (.groupStart _ source _)) h

theorem Plant.Kept.timeoutStart (p : Plant) (z : Zone) : p.Kept (p.timeoutStart z) :=
  (Plant.Kept.failStart p z _).trans (.enterIdle _ z)

/-! ### Resumption -/

theorem Plant.Kept.resumeRun (p : Plant) (z : Zone) (k : Checkpoint) : p.Kept (p.resumeRun z k) := by
  unfold Plant.resumeRun
  dsimp only
  refine Plant.Kept.trans ?_ (.evaluateAlone _ z)
  refine Plant.Kept.trans ?_ (.judgeWatched _ z)
  refine (fun (x y : Plant) (h : x.Kept y) => Plant.Kept.ite (h.trans (.applyHold _ z)) h) p _ ?_
  refine Plant.Kept.trans ?_ (.queueCheckpoint _ z)
  refine Plant.Kept.trans ?_ (.record _ z _ _)
  split
  · refine Plant.Kept.trans ?_ (.setInterval _ z _)
    refine Plant.Kept.trans (q := Plant.formSetpoints _ z _) ?_ (.climate _ z _ fun c => ?_)
    · refine Plant.Kept.trans ?_ (.formSetpoints _ z _)
      exact .zone p z _ ⟨rfl, rfl, rfl, rfl, rfl, rfl, rfl, rfl, rfl, rfl, .inl ⟨rfl, rfl, rfl⟩⟩
    · rcases k with ⟨_ | _ | _ | _, _⟩ <;>
        first
          | exact (c.measure _).ramp_kept
          | exact ⟨rfl, rfl, rfl⟩
  · exact .zone p z _ ⟨rfl, rfl, rfl, rfl, rfl, rfl, rfl, rfl, rfl, rfl, .inl ⟨rfl, rfl, rfl⟩⟩

/-- A resumption that finds nothing keeps the rest of the part. -/
theorem Plant.Kept.tryResume {p q : Plant} {z : Zone} (h : p.tryResume z = .inr q) : p.Kept q := by
  unfold Plant.tryResume at h
  dsimp only at h
  split at h
  · cases h
  · cases h
    exact (Plant.Kept.resumeRun p z _).trans (.judgeRelease _)

end Sys2Proof.Machine
end

