-- ==== Sys2Proof/Laws/Beside.lean ====
section
/-! SUPPORT. The operations on one zone leave the other zones and the group start timeout as they were, and what they leave
besides. -/

namespace Sys2Proof.Machine

/-- The group start timeout and every zone but one stand as they did. -/
structure Plant.Only (z : Zone) (p q : Plant) : Prop where
  group : q.groupTimeout = p.groupTimeout
  others : ∀ y, y ≠ z → q.unit y = p.unit y

namespace Plant.Only

variable {z : Zone} {p q r : Plant}

theorem refl (p : Plant) : Only z p p := ⟨rfl, fun _ _ => rfl⟩

theorem trans (h : Only z p q) (k : Only z q r) : Only z p r :=
  ⟨k.group.trans h.group, fun y hy => (k.others y hy).trans (h.others y hy)⟩

theorem zone (p : Plant) (z : Zone) (f : ZoneUnit → ZoneUnit) : Only z p (p.zone z f) :=
  ⟨rfl, fun _ hy => Plant.unit_zone_ne p f (Ne.symm hy)⟩

theorem put (p : Plant) (z : Zone) (u : ZoneUnit) : Only z p (p.put z u) := zone p z fun _ => u

theorem context (p : Plant) (z : Zone) (f : ZoneContext → ZoneContext) : Only z p (p.context z f) := zone p z _

theorem raise (p : Plant) (a : Alert) : Only z p (p.raise a) := ⟨rfl, fun _ _ => rfl⟩

theorem enqueue (p : Plant) (x : StoreItem) : Only z p (p.enqueue x) := by
  rw [Plant.enqueue_eq]; exact ⟨rfl, fun _ _ => rfl⟩

theorem queueCheckpoint (p : Plant) (z : Zone) : Only z p (p.queueCheckpoint z) := (enqueue p _).trans (context _ z _)

theorem record (p : Plant) (z : Zone) (k : RunKind) (reason : Option ExitReason) : Only z p (p.record z k reason) :=
  context p z _

theorem ite {c : Prop} [Decidable c] (h : Only z p q) (k : Only z p r) : Only z p (if c then q else r) := by
  split <;> assumption

theorem formSetpoints (p : Plant) (z : Zone) (r : StepRecord) : Only z p (p.formSetpoints z r) :=
  ite ((zone p z _).trans (raise _ _)) (zone p z _)

theorem setInterval (p : Plant) (z : Zone) (n : Nat) : Only z p (p.setInterval z n) :=
  (zone p z _).trans (ite (zone _ z _) (refl _))

theorem enterStep (p : Plant) (z : Zone) (ph : Phase) (i : Fin 128) (start : RampFrom) :
    Only z p (p.enterStep z ph i start) := by
  unfold Plant.enterStep
  dsimp only
  refine trans (trans ?_ (raise _ _)) (queueCheckpoint _ z)
  split
  · exact (((context p z _).trans (formSetpoints _ z _)).trans (zone _ z _)).trans (setInterval _ z _)
  · exact context p z _

theorem enterDone (p : Plant) (z : Zone) : Only z p (p.enterDone z) :=
  (((zone p z _).trans (record _ z _ _)).trans (raise _ _)).trans (queueCheckpoint _ z)

theorem enterHeld (p : Plant) (z : Zone) : Only z p (p.enterHeld z) :=
  ((zone p z _).trans (record _ z _ _)).trans (queueCheckpoint _ z)

theorem advance (p : Plant) (z : Zone) : Only z p (p.advance z) := by
  unfold Plant.advance
  dsimp only
  split
  · have h : Only z p
        (if (p.ctx z).eligible = some .maxTime then
          (p.record z .stepLeft (p.ctx z).eligible).raise (.zone z .forcedAdvance)
        else p.record z .stepLeft (p.ctx z).eligible) :=
      ite ((record p z _ _).trans (raise _ _)) (record p z _ _)
    split
    · exact h.trans (enterStep _ z _ _ _)
    · exact h.trans (enterDone _ z)
  · exact refl p

theorem becomeEligible (p : Plant) (z : Zone) (reason : ExitReason) : Only z p (p.becomeEligible z reason) := by
  have h := context p z fun c => { c with eligible := some reason }
  unfold Plant.becomeEligible
  exact .ite (.ite h (h.trans (context _ z _))) (h.trans (advance _ z))

theorem evaluateAlone (p : Plant) (z : Zone) : Only z p (p.evaluateAlone z) := by
  unfold Plant.evaluateAlone
  dsimp only
  split
  · split
    · exact .refl p
    · split
      · exact becomeEligible p z _
      · exact .refl p
  · exact .refl p

theorem returnToPhase (p : Plant) (z : Zone) : Only z p (p.returnToPhase z) := by
  unfold Plant.returnToPhase
  split
  · exact .refl p
  · exact (((zone p z _).trans (record _ z .resumed none)).trans (queueCheckpoint _ z)).trans (evaluateAlone _ z)

theorem leaveHold (p : Plant) (z : Zone) (f : HoldCauses → HoldCauses) : Only z p (p.leaveHold z f) := by
  have h := context p z fun c => { c with holds := f c.holds }
  unfold Plant.leaveHold
  dsimp only
  split
  · exact .ite h (h.trans (returnToPhase _ z))
  · exact .ite ((h.trans (context _ z _)).trans (evaluateAlone _ z)) h
  · exact .refl p

theorem joinHold (p : Plant) (z : Zone) (f : HoldCauses → HoldCauses) : Only z p (p.joinHold z f) := by
  unfold Plant.joinHold
  dsimp only
  split
  · exact ite ((context p z _).trans (ite (context _ z _) (enterHeld _ z))) (context p z _)
  · exact context p z _
  · exact refl p

theorem soundAlarm (p : Plant) : Only z p p.soundAlarm := ⟨rfl, fun _ _ => rfl⟩

theorem enterSafe (p : Plant) (z : Zone) : Only z p (p.enterSafe z) :=
  ((((zone p z _).trans (record _ z _ _)).trans (queueCheckpoint _ z)).trans (raise _ _)).trans (soundAlarm _)

theorem exitSafe (p : Plant) (z : Zone) : Only z p (p.exitSafe z) :=
  ((zone p z _).trans (record _ z _ _)).trans (queueCheckpoint _ z)

theorem changeCauses (p : Plant) (z : Zone) (f : SafeCauses → SafeCauses) : Only z p (p.changeCauses z f) := by
  unfold Plant.changeCauses
  dsimp only
  split
  · exact ite ((zone p z _).trans (enterSafe _ z)) (zone p z _)
  · exact ite ((zone p z _).trans (enterSafe _ z)) (zone p z _)
  · exact ite ((zone p z _).trans (context _ z _)) ((zone p z _).trans (exitSafe _ z))
  · exact refl p

theorem judgeWatched (p : Plant) (z : Zone) : Only z p (p.judgeWatched z) := by
  unfold Plant.judgeWatched
  exact changeCauses p z _

theorem enterFirstPhase (p : Plant) (z : Zone) : Only z p (p.enterFirstPhase z) := by
  unfold Plant.enterFirstPhase
  split
  · exact refl p
  · next ph i _ =>
    have h := ((context p z fun c => { c with startTimeout := none, ready := false, minuteTimer := some 60000 }).trans
      (enterStep _ z ph i .measured)).trans (record _ z .started none)
    exact (ite (h.trans (joinHold _ z fun x => { x with line := true })) h).trans (judgeWatched _ z)

end Plant.Only

theorem Plant.Kept.same {p q : Plant} (h : p.Kept q) : p.SameBeyondZones q :=
  ⟨h.straps, h.work, h.store, h.cursor, h.records, h.frontEnd, h.arbiter, h.spot, h.mux, h.delayedStart, h.lapse,
    h.fieldEnabled⟩

/-- What stands beside a zone through an operation on it. -/
theorem Plant.Only.beside {p q : Plant} {z : Zone} (h : Plant.Only z p q) (k : p.Kept q) : p.Beside q z :=
  ⟨k.same, h.group, h.others⟩

/-! ### The lines through an advance -/

theorem Plant.queueCheckpoint_lines (p : Plant) (z : Zone) : (p.queueCheckpoint z).lines = p.lines := by
  rw [Plant.queueCheckpoint_eq, Plant.enqueue_lines]; rfl

theorem Plant.formSetpoints_lines (p : Plant) (z : Zone) (r : StepRecord) : (p.formSetpoints z r).lines = p.lines := by
  unfold Plant.formSetpoints; dsimp only; split <;> rfl

theorem Plant.setInterval_lines (p : Plant) (z : Zone) (n : Nat) : (p.setInterval z n).lines = p.lines := by
  unfold Plant.setInterval Plant.reverseIfDue; split <;> rfl

theorem Plant.enterStep_lines (p : Plant) (z : Zone) (ph : Phase) (i : Fin 128) (start : RampFrom) :
    (p.enterStep z ph i start).lines = p.lines := by
  unfold Plant.enterStep
  dsimp only
  rw [Plant.queueCheckpoint_lines]
  split
  · exact (Plant.setInterval_lines _ _ _).trans (Plant.formSetpoints_lines _ _ _)
  · rfl

theorem Plant.advance_lines (p : Plant) (z : Zone) : (p.advance z).lines = p.lines := by
  unfold Plant.advance
  dsimp only
  split
  · split
    · rw [Plant.enterStep_lines]; split <;> rfl
    · rw [Plant.enterDone_eq, Plant.enqueue_lines]; simp only [Plant.put_lines]; split <;> rfl
  · rfl

/-! ### Chains -/

/-- A fold over zones is a chain, where each step of it does what the chain asks. -/
theorem Plant.chain_foldl {R : Zone → Plant → Plant → Prop} (f : Plant → Zone → Plant) (h : ∀ z p, R z p (f p z))
    (zs : List Zone) (p : Plant) : Plant.Chain R zs p (zs.foldl f p) := by
  induction zs generalizing p with
  | nil => rfl
  | cons z zs ih => exact ⟨_, h z p, ih _⟩

/-- A fold over the zones that a test picks is a chain over all, in which the others change nothing. -/
theorem Plant.chain_filter {R : Zone → Plant → Plant → Prop} (f : Plant → Zone → Plant) (t : Zone → Bool)
    (hf : ∀ z p, t z = true → R z p (f p z)) (hr : ∀ z p, t z = false → R z p p) (zs : List Zone) (p : Plant) :
    Plant.Chain R zs p ((zs.filter t).foldl f p) := by
  induction zs generalizing p with
  | nil => rfl
  | cons z zs ih =>
    by_cases e : t z = true
    · rw [List.filter_cons_of_pos e]; exact ⟨_, hf z p e, ih _⟩
    · rw [List.filter_cons_of_neg e]; exact ⟨_, hr z p (by simpa using e), ih _⟩

/-- A fold over the zones that a test picks, each step of which treats its zone alone, is a chain over all: a zone is reached
with its unit as it stood at first. -/
theorem Plant.chain_only {R : Zone → Plant → Plant → Prop} (f : Plant → Zone → Plant) (t : Zone → Bool)
    (ho : ∀ z x, Plant.Only z x (f x z)) (hk : ∀ (z : Zone) (x : Plant), x.Kept (f x z)) {p : Plant}
    (hf : ∀ z x, p.Kept x → x.unit z = p.unit z → t z = true → R z x (f x z)) (hr : ∀ z x, t z = false → R z x x)
    (zs : List Zone) (hn : zs.Nodup) : ∀ x, p.Kept x → (∀ y ∈ zs, x.unit y = p.unit y) →
      Plant.Chain R zs x ((zs.filter t).foldl f x) := by
  induction zs with
  | nil => intro x _ _; rfl
  | cons z zs ih =>
    intro x hx hu
    rw [List.nodup_cons] at hn
    by_cases e : t z = true
    · rw [List.filter_cons_of_pos e]
      refine ⟨_, hf z x hx (hu z List.mem_cons_self) e, ih hn.2 _ (hx.trans (hk z x)) fun y hy => ?_⟩
      exact ((ho z x).others y fun e => hn.1 (e ▸ hy)).trans (hu y (List.mem_cons_of_mem _ hy))
    · rw [List.filter_cons_of_neg e]
      exact ⟨x, hr z x (by simpa using e), ih hn.2 x hx fun y hy => hu y (List.mem_cons_of_mem _ hy)⟩

end Sys2Proof.Machine
end

