-- ==== Sys2Proof/Laws/Judged.lean ====
section
/-! SUPPORT. What each shared operation of the sequencers can do, said once: an advance, the release, an evaluation, a cause that
joins or leaves a set, the first phase, the judgement of the group, and the starts. -/

namespace Sys2Proof.Machine

/-! ### The following record -/

theorem PhaseEntries.following_last {e : PhaseEntries} {ph next : Phase} (i : Fin 128) {j : Fin 128}
    (h : ph.code < next.code) (hj : e.get next = some j)
    (hm : ∀ m : Phase, ph.code < m.code → m.code < next.code → e.get m = none) :
    e.following ph i true = some (next, j) := by
  have a := hm .warmup
  have b := hm .drying
  have c := hm .equalize
  have d := hm .condition
  have f := hm .cooldown
  cases ph <;> cases next <;> simp_all [Phase.code, PhaseEntries.following, Phase.later]

theorem PhaseEntries.following_none {e : PhaseEntries} {ph : Phase} (i : Fin 128)
    (hm : ∀ m : Phase, ph.code < m.code → e.get m = none) : e.following ph i true = none := by
  have a := hm .warmup
  have b := hm .drying
  have c := hm .equalize
  have d := hm .condition
  have f := hm .cooldown
  cases ph <;> simp_all [Phase.code, PhaseEntries.following, Phase.later]

theorem PhaseEntries.following_next {e : PhaseEntries} {ph : Phase} {i j : Fin 128} (h : j.val = i.val + 1) :
    e.following ph i false = some (ph, j) := by
  have h' : i.val + 1 < 128 := by have := j.isLt; omega
  simp [PhaseEntries.following, nextRecord, h']
  exact Fin.ext h.symm

theorem PhaseEntries.first_eq {e : PhaseEntries} {ph : Phase} {i : Fin 128}
    (hm : ∀ m : Phase, m.code < ph.code → e.get m = none) (hi : e.get ph = some i) : e.first = some (ph, i) := by
  have a := hm .warmup
  have b := hm .drying
  have c := hm .equalize
  have d := hm .condition
  cases ph <;> simp_all [Phase.code, PhaseEntries.first, Phase.order]

/-! ### Eligibility -/

theorem Plant.raiseIf_put (p : Plant) (z : Zone) (u : ZoneUnit) (b : Bool) (a : Alert) :
    (p.put z u).raiseIf b a = (p.raiseIf b a).put z u := by
  unfold Plant.raiseIf; split <;> rfl

/-- The advance of a zone on step `i` that has become eligible: STEP_LEFT, FORCED_ADVANCE, and what follows (R88). -/
theorem Plant.advance_eq (p : Plant) (z : Zone) {ph : Phase} {i : Fin 128} {y : StepRecord} (reason : ExitReason)
    (hs : (p.ctx z).state = .phase ph) (hi : (p.ctx z).stepIndex = some i) (hc : (p.ctx z).activeCopy = some y) :
    let u := p.unit z
    let r :=
      (p.raiseIf (decide (reason = .maxTime)) (.zone z .forcedAdvance)).put z
        { u with ctx := { u.ctx.gain (u.event .stepLeft (some reason)) with eligible := some reason } }
    (p.put z { u with ctx := { u.ctx with eligible := some reason } }).advance z =
      match (p.work.entries.get z).following ph i y.last with
      | some (next, j) => r.enterStep z next j .current
      | none => r.enterDone z := by
  intro u r
  have hs2 : u.ctx.state = .phase ph := hs
  have hi2 : u.ctx.stepIndex = some i := hi
  have hc2 : u.ctx.activeCopy = some y := hc
  have hu : ∀ v : ZoneUnit, v = { u with ctx := { u.ctx with eligible := some reason } } →
      (p.put z v).advance z = match (p.work.entries.get z).following ph i y.last with
        | some (next, j) =>
          ((if some reason = some ExitReason.maxTime then ((p.put z v).record z .stepLeft v.ctx.eligible).raise (.zone z .forcedAdvance)
            else (p.put z v).record z .stepLeft v.ctx.eligible)).enterStep z next j .current
        | none =>
          ((if some reason = some ExitReason.maxTime then ((p.put z v).record z .stepLeft v.ctx.eligible).raise (.zone z .forcedAdvance)
            else (p.put z v).record z .stepLeft v.ctx.eligible)).enterDone z := by
    rintro v rfl
    unfold Plant.advance
    simp only [Plant.put_ctx_self, hs2, hi2, hc2, Option.map, Option.getD, Plant.put_work] <;> rfl
  rw [hu _ rfl, Plant.record_eq, Plant.put_put, Plant.put_unit_self, Plant.put_ctx_self]
  by_cases hm : reason = .maxTime
  · simp only [r, hm, decide_true, Plant.raiseIf, if_true]; rfl
  · have hm' : some reason ≠ some ExitReason.maxTime := fun e => hm (Option.some.inj e)
    simp only [r, hm, hm', decide_false, Plant.raiseIf, if_false, Bool.false_eq_true]; rfl

theorem Plant.setInterval_ctx (p : Plant) (z : Zone) (n : Nat) : (p.setInterval z n).ctx z = p.ctx z := by
  unfold Plant.setInterval Plant.reverseIfDue Plant.fan Plant.output Plant.beginDwell Plant.output
  split <;> simp only [Plant.ctx_eq, Plant.unit_zone_self]

theorem Plant.setInterval_alerts (p : Plant) (z : Zone) (n : Nat) : (p.setInterval z n).alerts = p.alerts := by
  unfold Plant.setInterval Plant.reverseIfDue; split <;> rfl

theorem Plant.formSetpoints_ctx (p : Plant) (z : Zone) (r : StepRecord) : (p.formSetpoints z r).ctx z = p.ctx z := by
  rw [Plant.formSetpoints_eq, Plant.put_ctx_self]; rfl

theorem Plant.formSetpoints_alerts (p : Plant) (z : Zone) (r : StepRecord) :
    (p.formSetpoints z r).alerts = (p.raiseIf (decide (p.kiln.maximumDb < r.db)) (.zone z .targetClamped)).alerts := by
  rw [Plant.formSetpoints_eq, Plant.put_alerts]

theorem Plant.climate_ctx (p : Plant) (z : Zone) (f : ClimateState → ClimateState) : (p.climate z f).ctx z = p.ctx z := by
  unfold Plant.climate; rw [Plant.ctx_eq, Plant.unit_zone_self]; rfl

theorem Plant.queueCheckpoint_ctx (p : Plant) (z : Zone) :
    (p.queueCheckpoint z).ctx z = { p.ctx z with checkpointCount := 0 } := by
  rw [Plant.queueCheckpoint_eq, Plant.enqueue_ctx, Plant.put_ctx_self]

theorem Plant.queueCheckpoint_alerts (p : Plant) (z : Zone) : (p.queueCheckpoint z).alerts = p.alerts := by
  rw [Plant.queueCheckpoint_eq, Plant.enqueue_alerts]; rfl

/-- Step entry, whatever the fan does: the context and the alerts (R83). -/
theorem Plant.enterStep_facts (p : Plant) (z : Zone) (ph : Phase) (i : Fin 128) (x : StepRecord) (start : RampFrom)
    (hx : p.work.records.get i = some x) :
    (p.enterStep z ph i start).ctx z = ((p.unit z).stepped ph i x p.kiln.maximumDb (p.work.config.zones.get z).dwell).ctx ∧
      (p.enterStep z ph i start).alerts =
        ((p.raiseIf (decide (p.kiln.maximumDb < x.db)) (.zone z .targetClamped)).raise
          (.zone z (if (p.ctx z).state = .phase ph then .stepAdvanced else .phaseChanged))).alerts := by
  unfold Plant.enterStep
  simp only [hx, Plant.startRamp]
  constructor
  · rw [Plant.queueCheckpoint_ctx, Plant.raise_ctx, Plant.setInterval_ctx, Plant.climate_ctx, Plant.formSetpoints_ctx,
      Plant.context_eq_put, Plant.put_ctx_self]
    rfl
  · rw [Plant.queueCheckpoint_alerts]
    have : ∀ (q r : Plant) (a : Alert), q.alerts = r.alerts → (q.raise a).alerts = (r.raise a).alerts := by
      intro q r a h; unfold Plant.raise; rw [h]
    refine this _ _ _ ?_
    rw [Plant.setInterval_alerts]
    refine (Plant.formSetpoints_alerts _ z x).trans ?_
    rw [Plant.context_eq_put, Plant.raiseIf_put, Plant.put_alerts]
    rfl

theorem Plant.Follows.eq {p : Plant} {z : Zone} {ph next : Phase} {i j : Fin 128} {y : StepRecord}
    (h : p.Follows z ph i y next j) : (p.work.entries.get z).following ph i y.last = some (next, j) := by
  rcases h with ⟨h1, rfl, h3⟩ | ⟨h1, h2, h3, h4⟩
  · rw [h1]; exact PhaseEntries.following_next h3
  · rw [h1]; exact PhaseEntries.following_last i h2 h3 h4

/-- What an advance leaves (R88). -/
theorem Plant.advance_advances (p : Plant) (z : Zone) (reason : ExitReason) :
    p.Advances ((p.put z { p.unit z with ctx := { p.ctx z with eligible := some reason } }).advance z) z reason where
  beside := ((Plant.Only.put p z _).trans (.advance _ z)).beside ((Plant.Kept.context p z fun c =>
    { c with eligible := some reason }).trans (.advance _ z))
  lines := Plant.advance_lines _ _
  enters := by
    intro ph i y next j x hs hi hc hf hx u left v alerted
    have e := p.advance_eq z reason hs hi hc
    simp only [hf.eq] at e
    have hst : (({ u.ctx.gain (u.event .stepLeft (some reason)) with eligible := some reason } :
        ZoneContext)).state = .phase ph := hs
    have hc1 : (if ZoneState.phase ph = .phase next then ZoneAlert.stepAdvanced else .phaseChanged) =
        if next = ph then .stepAdvanced else .phaseChanged := by
      by_cases hnp : next = ph
      · subst hnp; simp
      · have hnp' : ZoneState.phase ph ≠ .phase next := fun e => hnp (by cases e; rfl)
        simp [hnp, hnp']
    rw [show (p.put z { p.unit z with ctx := { p.ctx z with eligible := some reason } }).advance z = _ from e,
      Plant.enterStep_eq _ z next j x (by simpa using hx)]
    simp only [Plant.put_unit_self, Plant.put_ctx_self, Plant.put_kiln, Plant.put_work, Plant.raiseIf_kiln,
      Plant.raiseIf_work, Plant.raiseIf_put, Plant.put_raise, Plant.put_put]
    rw [hst, hc1]
    rfl
  finishes := by
    intro ph i y hs hi hc hl hm u v
    have e := p.advance_eq z reason hs hi hc
    simp only [hl, PhaseEntries.following_none i hm] at e
    rw [show (p.put z { p.unit z with ctx := { p.ctx z with eligible := some reason } }).advance z = _ from e,
      Plant.enterDone_eq]
    simp only [Plant.put_unit_self, Plant.put_put, Plant.put_raise]
    rfl

/-! ### The lockstep set -/

theorem Plant.inLockstep_iff (p : Plant) (z : Zone) : p.inLockstep z = true ↔ p.InStep z := by
  unfold Plant.inLockstep Plant.InStep Plant.grouped Plant.items ZoneContext.currentPhase
  cases (p.work.config.zones.get z).grouped <;> cases (p.ctx z).detached <;> simp
  cases (p.ctx z).state <;> simp

theorem Plant.mem_lockstep (p : Plant) (z : Zone) : z ∈ p.lockstep ↔ p.InStep z := by
  unfold Plant.lockstep
  rw [List.mem_filter, Plant.inLockstep_iff]
  exact and_iff_right (by cases z <;> decide)

/-- What the judgement of the release leaves (R111). -/
theorem Plant.judgeRelease_released (p : Plant) : p.Released p.judgeRelease where
  stays h := by
    unfold Plant.judgeRelease
    refine if_neg fun e => ?_
    simp only [Bool.and_eq_true, Bool.not_eq_true', List.isEmpty_eq_false_iff_exists_mem, List.all_eq_true,
      Plant.mem_lockstep] at e
    rcases h with h | ⟨y, hy, hw⟩
    · exact e.1.elim h
    · exact absurd (e.2 y hy) (by simp [hw])
  releases := by
    intro he hw
    have : p.judgeRelease = p.lockstep.foldl Plant.advance p := by
      unfold Plant.judgeRelease
      refine if_pos ?_
      simp only [Bool.and_eq_true, Bool.not_eq_true', List.isEmpty_eq_false_iff_exists_mem, List.all_eq_true,
        Plant.mem_lockstep]
      exact ⟨he, hw⟩
    rw [this]
    -- the context of a zone that has not been treated stands as it did in `p`
    have key : ∀ (zs : List Zone) (q : Plant), zs.Nodup → (∀ y ∈ zs, q.unit y = p.unit y) →
        Plant.Chain
          (fun y r r' =>
            (¬p.InStep y → r' = r) ∧
              (p.InStep y → r.Beside r' y ∧ ∀ reason, (p.ctx y).eligible = some reason → r.Advances r' y reason))
          zs q ((zs.filter p.inLockstep).foldl Plant.advance q) := by
      intro zs
      induction zs with
      | nil => intro q _ _; rfl
      | cons z zs ih =>
        intro q hn hu
        rw [List.nodup_cons] at hn
        by_cases hz : p.InStep z
        · rw [List.filter_cons_of_pos ((p.inLockstep_iff z).2 hz)]
          have hb : q.Beside (q.advance z) z := (Plant.Only.advance q z).beside (.advance q z)
          refine ⟨_, ⟨fun h => absurd hz h, fun _ => ⟨hb, fun reason hr => ?_⟩⟩,
            ih _ hn.2 fun y hy => (hb.others y fun e => hn.1 (e ▸ hy)).trans (hu y (List.mem_cons_of_mem _ hy))⟩
          have hq : q.unit z = p.unit z := hu z List.mem_cons_self
          have : q.put z { q.unit z with ctx := { q.ctx z with eligible := some reason } } = q := by
            have : ({ q.unit z with ctx := { q.ctx z with eligible := some reason } } : ZoneUnit) = q.unit z := by
              have : (q.ctx z).eligible = some reason := by rw [Plant.ctx_eq, hq]; exact hr
              rw [← this]; rfl
            rw [this, Plant.put_unit]
          have h := q.advance_advances z reason
          rwa [this] at h
        · rw [List.filter_cons_of_neg (by rw [Plant.inLockstep_iff]; exact hz)]
          exact ⟨q, ⟨fun _ => rfl, fun h => absurd h hz⟩, ih q hn.2 fun y hy => hu y (List.mem_cons_of_mem _ hy)⟩
    exact key everyZone p (by decide) fun _ _ => rfl

/-! ### Evaluations -/

/-- What the evaluation of the eligibility of a zone leaves, up to the judgement of the release (R86 to R89, R110). -/
theorem Plant.evaluateAlone_judged (p : Plant) (z : Zone) : p.StepJudged (p.evaluateAlone z) z := by
  have found : ∀ (ph : Phase) (y : StepRecord) (reason : ExitReason),
      (p.ctx z).state = .phase ph → (p.ctx z).activeCopy = some y → (p.ctx z).holdPending = false →
      (p.ctx z).eligible = none → (p.unit z).judgeStep (p.work.config.zones.get z) ph y = some reason →
      p.evaluateAlone z = p.becomeEligible z reason := by
    intro ph y reason hs hc hp he hj
    have hj' : (p.unit z).judgeStep (p.items z) ph y = some reason := hj
    unfold Plant.evaluateAlone
    simp only [hs, hc, hp, he, hj', Option.isSome_none, Bool.or_self, Bool.false_eq_true, if_false]
  have test : ∀ ph, (p.ctx z).state = .phase ph →
      ((p.grouped z && !(p.ctx z).detached && (p.ctx z).state == .phase .drying) = true ↔ p.InStep z) := by
    intro ph hs
    rw [← Plant.inLockstep_iff]
    unfold Plant.inLockstep ZoneContext.currentPhase
    simp [hs]
  refine ⟨fun hn => ?_, fun ph y reason hs hc hp he hj hi => ?_, fun ph y reason hs hc hp he hj hi => ?_⟩
  · unfold Plant.evaluateAlone
    simp only
    split
    next ph r hs hc =>
      rcases hn ph r hs hc with e | e | e
      · simp [e]
      · simp [e]
      · have e' : (p.unit z).judgeStep (p.items z) ph r = none := e
        rw [e']; simp
    next => rfl
  · rw [found ph y reason hs hc hp he hj]
    unfold Plant.becomeEligible
    rw [if_neg fun e => hi ((test ph hs).1 e)]
    exact p.advance_advances z reason
  · rw [found ph y reason hs hc hp he hj]
    unfold Plant.becomeEligible
    rw [if_pos ((test ph hs).2 hi)]
    dsimp only
    rw [Plant.context_eq_put, Plant.context_eq_put, Plant.put_put, Plant.put_unit_self]
    cases hw : (p.ctx z).waiting
    · rfl
    · simp only [if_true]
      rw [← hw]
      rfl

/-- What the evaluation of a zone leaves, the release judged (R86 to R89, R110, R111). -/
theorem Plant.evaluate_evaluated (p : Plant) (z : Zone) : p.Evaluated (p.evaluate z) z :=
  ⟨_, p.evaluateAlone_judged z, Plant.judgeRelease_released _⟩

/-! ### Holds -/

/-- What a cause that joins a hold-cause set leaves (R90, R91). -/
theorem Plant.joinHold_gained (p : Plant) (z : Zone) (f : HoldCauses → HoldCauses)
    (hf : (f (p.ctx z).holds).any = true) : p.HoldGained (p.joinHold z f) z (f (p.ctx z).holds) := by
  have ramping : ((p.unit z).withCtx fun c => { c with holds := f c.holds }).ramping = true ↔
      (p.ctx z).state.inPhase = true ∧ (p.unit z).climate.Away := by
    rw [ZoneUnit.ramping_iff]; rfl
  refine ⟨fun h1 h2 => ?_, fun h => ?_, fun h1 h2 h3 => ?_, fun ph h1 h2 h3 => ?_⟩
  · unfold Plant.joinHold
    cases hs : (p.ctx z).state with
    | phase ph => simp [hs, ZoneState.phase?] at h2
    | held => exact absurd hs h1
    | _ => simp [hs]
  · have e : p.joinHold z f = p.context z fun c => { c with holds := f c.holds } := by
      unfold Plant.joinHold
      rcases h with h | ⟨h, hh⟩
      · simp only [h]
      · cases hs : (p.ctx z).state with
        | phase ph => simp [hs, hh]
        | _ => simp [hs, ZoneState.inPhase] at h
    rw [e]; rfl
  · have e : p.joinHold z f = (p.context z fun c => { c with holds := f c.holds }).applyHold z := by
      unfold Plant.joinHold
      cases hs : (p.ctx z).state with
      | phase ph => simp [hs, h2, hf]
      | _ => simp [hs, ZoneState.inPhase] at h1
    rw [e]
    unfold Plant.applyHold
    rw [Plant.context_eq_put, Plant.put_unit_self, if_pos (ramping.2 ⟨h1, h3⟩), Plant.context_eq_put, Plant.put_put,
      Plant.put_unit_self]
    rfl
  · have e : p.joinHold z f = (p.context z fun c => { c with holds := f c.holds }).applyHold z := by
      unfold Plant.joinHold
      simp [h1, h2, hf]
    rw [e]
    unfold Plant.applyHold
    rw [Plant.context_eq_put, Plant.put_unit_self, if_neg fun e => h3 (ramping.1 e).2,
      Plant.enterHeld_eq _ z ph (by rw [Plant.put_ctx_self]; exact h1), Plant.put_unit_self, Plant.put_put]
    rfl

/-- The return of a HELD zone to its phase, up to its evaluation (R92, R121). -/
theorem Plant.returnToPhase_eq (p : Plant) (z : Zone) (ph : Phase) (d w : Int) (hu : (p.ctx z).underlying = some ph)
    (hd : (p.unit z).climate.dbSetpoint = some d) (hw : (p.unit z).climate.wbSetpoint = some w) :
    p.returnToPhase z =
      ((p.put z ((p.unit z).returned ph d w)).enqueue
        (.checkpoint z ((p.unit z).returned ph d w).checkpoint)).evaluateAlone z := by
  unfold Plant.returnToPhase
  simp only [hu, Plant.zone_eq_put, Plant.record_eq, Plant.queueCheckpoint_eq, Plant.put_put, Plant.put_unit_self,
    Plant.put_ctx_self, ClimateState.ramp_eq _ d w hd hw]
  rfl

/-- What a cause that leaves a hold-cause set leaves, up to the judgement of the release (R90, R92). -/
theorem Plant.leaveHold_left (p : Plant) (z : Zone) (f : HoldCauses → HoldCauses) :
    p.HoldLeft (p.leaveHold z f) z (f (p.ctx z).holds) := by
  refine ⟨fun h1 h2 => ?_, fun h => ?_, fun ph d w h1 h2 h3 h4 h5 => ?_, fun h1 h2 h3 => ?_⟩
  · unfold Plant.leaveHold
    cases hs : (p.ctx z).state with
    | phase ph => simp [hs, ZoneState.phase?] at h2
    | held => exact absurd hs h1
    | _ => simp [hs]
  · have e : p.leaveHold z f = p.context z fun c => { c with holds := f c.holds } := by
      unfold Plant.leaveHold
      rcases h with ⟨h, hh⟩ | ⟨h, hh⟩
      · simp [h, hh]
      · cases hs : (p.ctx z).state with
        | phase ph => rcases hh with hh | hh <;> simp [hs, hh]
        | _ => simp [hs, ZoneState.inPhase] at h
    rw [e]; rfl
  · have e : p.leaveHold z f = (p.context z fun c => { c with holds := f c.holds }).returnToPhase z := by
      unfold Plant.leaveHold
      simp [h1, h2]
    rw [e]
    rw [Plant.context_eq_put, Plant.returnToPhase_eq _ z ph d w (by rw [Plant.put_ctx_self]; exact h3)
      (by rw [Plant.put_unit_self]; exact h4) (by rw [Plant.put_unit_self]; exact h5), Plant.put_put, Plant.put_unit_self]
    exact Plant.evaluateAlone_judged _ z
  · have e : p.leaveHold z f =
        ((p.context z fun c => { c with holds := f c.holds }).context z fun c =>
          { c with holdPending := false }).evaluateAlone z := by
      unfold Plant.leaveHold
      cases hs : (p.ctx z).state with
      | phase ph => simp [hs, h2, h3]
      | _ => simp [hs, ZoneState.inPhase] at h1
    rw [e, Plant.context_eq_put, Plant.context_eq_put, Plant.put_put, Plant.put_unit_self]
    exact Plant.evaluateAlone_judged _ z

/-! ### Starts -/

theorem ZoneUnit.dbSatisfies_iff (u : ZoneUnit) (f : Int → Bool) :
    u.dbSatisfies f = true ↔ u.climate.db.status = .good ∧ ∃ x, u.climate.db.value = some x ∧ f x = true := by
  unfold ZoneUnit.dbSatisfies SensorRecord.usable
  by_cases h : u.climate.db.status = .good
  · simp only [h, if_true, true_and]
    cases u.climate.db.value <;> simp
  · simp [h]

/-- The conditions of R81. -/
theorem Plant.meets_iff (p : Plant) (z : Zone) : p.Meets z ↔ (p.unmet z).any = false := by
  unfold Plant.Meets Plant.unmet Unmet.any
  simp only [Bool.or_eq_false_iff, Bool.and_eq_false_imp, Bool.not_eq_false', Bool.and_eq_true, beq_iff_eq,
    ZoneUnit.dbSatisfies_iff, decide_eq_true_eq, Plant.items]
  constructor
  · rintro ⟨a, b, c, d, e, f⟩
    exact ⟨⟨⟨⟨a, b⟩, fun h => decide_eq_false (Nat.not_lt.2 (c h))⟩, ⟨d, e⟩, d, f⟩, trivial⟩
  · rintro ⟨⟨⟨⟨a, b⟩, c⟩, ⟨d, e⟩, -, f⟩, -⟩
    exact ⟨a, b, fun h => Nat.not_lt.1 (of_decide_eq_false (c h)), d, e, f⟩

/-- Step entry from measured values (R83, R119). -/
theorem Plant.enterStep_measured_eq (p : Plant) (z : Zone) (ph : Phase) (i : Fin 128) (x : StepRecord) {v : ZoneUnit}
    (hx : p.work.records.get i = some x)
    (hv :
      v =
        { (p.unit z).stepped ph i x p.kiln.maximumDb (p.work.config.zones.get z).dwell with
          climate :=
            (((p.unit z).climate.measured p.kiln.maximumDb).steered x p.kiln.maximumDb).started
              (min x.db p.kiln.maximumDb) (min x.db p.kiln.maximumDb - x.depression) }) :
    p.enterStep z ph i .measured =
      ((((p.raiseIf (decide (p.kiln.maximumDb < x.db)) (.zone z .targetClamped)).raise
          (.zone z (if (p.ctx z).state = .phase ph then .stepAdvanced else .phaseChanged))).put z v).enqueue
        (.checkpoint z v.checkpoint)) := by
  subst hv
  have hm : ((p.unit z).climate.steered x p.kiln.maximumDb).measured p.kiln.maximumDb =
      ((p.unit z).climate.measured p.kiln.maximumDb).steered x p.kiln.maximumDb := rfl
  unfold Plant.enterStep
  simp only [hx, Plant.startRamp, Plant.context_eq_put]
  rw [Plant.setInterval_eq]
  · simp only [Plant.climate, Plant.zone_eq_put, Plant.formSetpoints_eq, Plant.queueCheckpoint_eq, Plant.put_put,
      Plant.put_unit_self, Plant.put_ctx_self, Plant.put_kiln, Plant.put_raise, ClimateState.measure_eq,
      ZoneUnit.withCtx, Plant.raiseIf_put, Plant.raiseIf_work, Plant.put_work, hm]
    rw [ClimateState.ramp_eq _ (min x.db p.kiln.maximumDb) (min x.db p.kiln.maximumDb - x.depression) rfl rfl]
    rfl
  · simp [Plant.climate, Plant.zone_eq_put, Plant.formSetpoints_eq, ZoneUnit.withCtx, ZoneState.runs]

/-- What entering the first phase leaves before the conditions of SAFE are judged (R82, R83). -/
theorem Plant.entered_eq (p : Plant) (z : Zone) (ph : Phase) (i : Fin 128) (x : StepRecord)
    (hx : p.work.records.get i = some x) (hs : (p.ctx z).state = .starting) :
    ((p.context z fun c => { c with startTimeout := none, ready := false, minuteTimer := some 60000 }).enterStep z ph i
        .measured).record z .started =
      (((p.raiseIf (decide (p.kiln.maximumDb < x.db)) (.zone z .targetClamped)).raise
          (.zone z .phaseChanged)).put z
          ((p.unit z).entered ph i x p.kiln.maximumDb (p.work.config.zones.get z).dwell)).enqueue
        (.checkpoint z ((p.unit z).entered ph i x p.kiln.maximumDb (p.work.config.zones.get z).dwell).checkpoint) := by
  have hs' : (p.unit z).ctx.state = .starting := hs
  rw [Plant.context_eq_put, Plant.enterStep_measured_eq _ z ph i x (by exact hx) rfl]
  simp only [Plant.record_eq, Plant.put_unit_self, Plant.put_ctx_self, Plant.put_put, Plant.raiseIf_put,
    Plant.put_raise, ZoneUnit.withCtx, hs', reduceCtorEq, if_false, Plant.put_kiln, Plant.enqueue_put,
    Plant.enqueue_unit, Plant.enqueue_ctx]
  rfl

theorem SafeCauses.eq_none {c : SafeCauses} (h : c.any = false) :
    c = { door := false, sensor := false, fan := false, overtemp := false } := by
  revert h
  rcases c with ⟨a, b, c, d⟩
  cases a <;> cases b <;> cases c <;> cases d <;> simp [SafeCauses.any]

theorem Plant.enqueue_shouldRun (p : Plant) (x : StoreItem) (z : Zone) : (p.enqueue x).shouldRun z = p.shouldRun z := by
  unfold Plant.shouldRun
  simp

theorem Plant.raise_shouldRun (p : Plant) (a : Alert) (z : Zone) : (p.raise a).shouldRun z = p.shouldRun z := rfl

theorem Plant.raiseIf_shouldRun (p : Plant) (b : Bool) (a : Alert) (z : Zone) :
    (p.raiseIf b a).shouldRun z = p.shouldRun z := by
  unfold Plant.raiseIf; split <;> rfl

/-- A change of the cause set of a zone that runs: SAFE is entered where a cause is left in it (R133, R139). -/
theorem Plant.changeCauses_runs (p : Plant) (z : Zone) (f : SafeCauses → SafeCauses)
    (hs : (p.ctx z).state.runs = true) :
    p.changeCauses z f =
      if (f (p.unit z).causes).any = true then (p.put z { p.unit z with causes := f (p.unit z).causes }).enterSafe z
      else p.put z { p.unit z with causes := f (p.unit z).causes } := by
  unfold Plant.changeCauses
  simp only [Plant.zone_eq_put, Plant.put_unit_self]
  revert hs
  cases (p.ctx z).state <;> simp [ZoneState.runs]

/-- Judging a zone that runs with no cause: it stays, or enters SAFE with the causes whose conditions stand (R138, R139). -/
theorem Plant.judgeWatched_runs (p : Plant) (z : Zone) (hs : (p.ctx z).state.runs = true)
    (hc : (p.unit z).causes.any = false) :
    let causes : SafeCauses :=
      { door := p.doorOpen, sensor := (p.unit z).sensorFault, fan := p.overdue z,
        overtemp := (p.unit z).overtemp p.kiln }
    p.judgeWatched z =
      if causes.any = true then (p.put z { p.unit z with causes := causes }).enterSafe z
      else p := by
  intro causes
  have h0 := SafeCauses.eq_none hc
  have e : p.judgeWatched z =
      p.changeCauses z fun c =>
        { door := c.door || p.doorOpen, sensor := c.sensor || (p.unit z).sensorFault, fan := c.fan || p.overdue z,
          overtemp := c.overtemp || (p.unit z).overtemp p.kiln } := rfl
  rw [e, Plant.changeCauses_runs p z _ hs, h0]
  simp only [Bool.false_or]
  by_cases ha : causes.any = true
  · exact (if_pos ha).trans (if_pos ha).symm
  · refine (if_neg ha).trans (Eq.trans ?_ (if_neg ha).symm)
    have hcs : causes = (p.unit z).causes := by
      rw [h0]; exact SafeCauses.eq_none (by simpa using ha)
    have : p.put z { p.unit z with causes := causes } = p := by rw [hcs]; exact Plant.put_unit p z
    exact this

/-- What a cause that joins the hold-cause set of a zone in a phase state leaves as it was (R90, R91). -/
structure Plant.HoldJoined (p t : Plant) (z : Zone) (ph : Phase) : Prop where
  runs : (t.ctx z).state.runs = true
  phase : (t.ctx z).currentPhase = some ph
  step : (t.ctx z).stepIndex = (p.ctx z).stepIndex
  copy : (t.ctx z).activeCopy = (p.ctx z).activeCopy
  causes : (t.unit z).causes = (p.unit z).causes
  overdue : (t.unit z).proofOverdue = (p.unit z).proofOverdue
  db : (t.unit z).climate.db = (p.unit z).climate.db
  wb : (t.unit z).climate.wb = (p.unit z).climate.wb
  door : t.doorOpen = p.doorOpen
  kiln : t.kiln = p.kiln
  fan : t.shouldRun z = p.shouldRun z
  alerts : t.alerts = p.alerts

theorem Plant.joinHold_phase (p : Plant) (z : Zone) (f : HoldCauses → HoldCauses) {ph : Phase}
    (hs : (p.ctx z).state = .phase ph) : p.HoldJoined (p.joinHold z f) z ph := by
  have put : ∀ c : ZoneContext, c.state = .phase ph → c.stepIndex = (p.ctx z).stepIndex →
      c.activeCopy = (p.ctx z).activeCopy → p.HoldJoined (p.put z { p.unit z with ctx := c }) z ph := by
    intro c h1 h2 h3
    refine ⟨?_, ?_, ?_, ?_, ?_, ?_, ?_, ?_, rfl, rfl, ?_, rfl⟩ <;>
      simp [h1, h2, h3, ZoneState.runs, ZoneContext.currentPhase, Plant.shouldRun, ZoneUnit.fanRunLevel]
  unfold Plant.joinHold
  simp only [hs]
  split
  · unfold Plant.applyHold
    split
    · rw [Plant.context_eq_put, Plant.context_eq_put, Plant.put_put, Plant.put_unit_self]
      exact put _ hs rfl rfl
    · rw [Plant.enterHeld_eq _ z ph (by rw [Plant.context_eq_put, Plant.put_ctx_self]; exact hs)]
      rw [Plant.context_eq_put, Plant.put_put, Plant.put_unit_self]
      refine ⟨?_, ?_, ?_, ?_, ?_, ?_, ?_, ?_, ?_, ?_, ?_, ?_⟩ <;>
        simp [ZoneUnit.heldOver, ZoneUnit.withCtx, ZoneState.runs, ZoneContext.currentPhase, Plant.enqueue_shouldRun,
          ZoneContext.gain, Plant.ctx_eq]
      simp [Plant.shouldRun, ZoneUnit.fanRunLevel]
  · exact put _ hs rfl rfl

/-! ### SAFE -/

theorem Plant.enterSafe_secured (p : Plant) (z : Zone) (causes : SafeCauses) :
    p.Secured ((p.put z { p.unit z with causes := causes }).enterSafe z) z causes := by
  unfold Plant.Secured
  rw [Plant.enterSafe_eq, Plant.put_unit_self, Plant.soundAlarm_put, Plant.put_raise, Plant.put_put]
  rfl

/-- What a change of a safe-cause set leaves (R133, R139, R140). -/
theorem Plant.changeCauses_caused (p : Plant) (z : Zone) (f : SafeCauses → SafeCauses) :
    p.Caused (p.changeCauses z f) z (f (p.unit z).causes) := by
  have hq : (p.zone z fun u => { u with causes := f u.causes }) = p.put z { p.unit z with causes := f (p.unit z).causes } :=
    rfl
  constructor <;> intro h
  · unfold Plant.changeCauses
    cases hs : (p.ctx z).state <;> simp [hs, ZoneState.watched] at h ⊢
  all_goals intro ha
  · have e : p.changeCauses z f = (p.put z { p.unit z with causes := f (p.unit z).causes }).enterSafe z := by
      unfold Plant.changeCauses
      rcases h with h | h
      · simp [h, ha, hq]
      · cases hs : (p.ctx z).state <;> simp [hs, ZoneState.inPhase] at h ⊢
        simp [ha, hq]
    rw [e]; exact Plant.enterSafe_secured p z _
  · unfold Plant.changeCauses
    rcases h with h | h
    · simp [h, ha, hq]
    · cases hs : (p.ctx z).state <;> simp [hs, ZoneState.inPhase] at h ⊢
      simp [ha, hq]
  · unfold Plant.changeCauses
    simp only [h, hq, Plant.put_unit_self, ha, if_true, Plant.context_eq_put, Plant.put_put]
    rfl
  · have e : p.changeCauses z f = (p.put z { p.unit z with causes := f (p.unit z).causes }).exitSafe z := by
      unfold Plant.changeCauses
      simp [h, ha, hq]
    intro w
    rw [e, Plant.exitSafe_eq _ z (by rw [Plant.put_unit_self]; exact ha), Plant.put_unit_self, Plant.put_put]
    rfl

/-! ### The first phase -/

/-- An entry of the run record with the entries after it. -/
def ZoneContext.Shows (c : ZoneContext) (e : RunEntry) (n : Nat) : Prop :=
  ∃ l m, c.runRecord = l ++ e :: m ∧ m.length ≤ n

theorem ZoneContext.Shows.gain {c : ZoneContext} {e : RunEntry} {n : Nat} (h : c.Shows e n) (hn : n < 40) (x : RunEntry) :
    (c.gain x).Shows e (n + 1) := by
  obtain ⟨l, m, h1, h2⟩ := h
  unfold ZoneContext.gain
  by_cases hl : c.runRecord.length < 48
  · rw [if_pos hl]
    exact ⟨l, m ++ [x], by simp [h1], by simp; omega⟩
  · rw [if_neg hl]
    cases l with
    | nil => rw [h1] at hl; simp at hl; omega
    | cons a l => exact ⟨l, m ++ [x], by simp [h1], by simp; omega⟩

/-- A zone stands at record `i` of its first phase, or over it, with a STARTED entry that at most `n` entries follow. -/
structure ZoneUnit.AtFirst (u : ZoneUnit) (ph : Phase) (i : Fin 128) (x : StepRecord) (n : Nat) : Prop where
  state :
    u.ctx.state = .phase ph ∨ ((u.ctx.state = .held ∨ u.ctx.state = .safe) ∧ u.ctx.underlying = some ph)
  step : u.ctx.stepIndex = some i
  copy : u.ctx.activeCopy = some x
  clock : u.ctx.stepClock = 0
  minute : u.ctx.minuteTimer = some 60000
  started :
    ∃ e : RunEntry, u.ctx.Shows e n ∧ e.kind = .started ∧ e.step = some i ∧ e.minute = u.ctx.runClock

theorem ZoneContext.gain_fields (c : ZoneContext) (e : RunEntry) :
    (c.gain e).state = c.state ∧ (c.gain e).underlying = c.underlying ∧ (c.gain e).stepIndex = c.stepIndex ∧
      (c.gain e).activeCopy = c.activeCopy ∧ (c.gain e).stepClock = c.stepClock ∧
      (c.gain e).minuteTimer = c.minuteTimer ∧ (c.gain e).runClock = c.runClock := by
  unfold ZoneContext.gain; split <;> exact ⟨rfl, rfl, rfl, rfl, rfl, rfl, rfl⟩

theorem ZoneUnit.AtFirst.secured {u : ZoneUnit} {ph : Phase} {i : Fin 128} {x : StepRecord} {n : Nat}
    (h : u.AtFirst ph i x n) (hn : n < 40) (hs : u.ctx.state ≠ .safe) (causes : SafeCauses) (setting : SafeFan) :
    (u.secured causes setting).AtFirst ph i x (n + 1) := by
  obtain ⟨e, h1, h2, h3, h4⟩ := h.started
  obtain ⟨g1, g2, g3, g4, g5, g6, g7⟩ := u.ctx.gain_fields (u.event .safeEntered none)
  have hp : u.ctx.currentPhase = some ph := by
    unfold ZoneContext.currentPhase
    rcases h.state with e | ⟨e | e, e'⟩
    · simp [e]
    · simp [e, e']
    · exact absurd e hs
  exact ⟨.inr ⟨.inr rfl, hp⟩, g3.trans h.step, g4.trans h.copy, g5.trans h.clock, g6.trans h.minute,
    e, h1.gain hn _, h2, h3, h4.trans g7.symm⟩

/-- A cause that joins the hold-cause set of a zone in its first phase leaves it there, or over it in HELD. -/
theorem Plant.HoldGained.atFirst {p q : Plant} {z : Zone} {h : HoldCauses} (g : p.HoldGained q z h) {ph : Phase}
    {i : Fin 128} {x : StepRecord} (hs : (p.ctx z).state = .phase ph) (ha : (p.unit z).AtFirst ph i x 0) :
    (q.unit z).AtFirst ph i x 1 ∧ (q.ctx z).state.runs = true ∧ (q.unit z).causes = (p.unit z).causes := by
  obtain ⟨e, ⟨l, m, h1, h1'⟩, h2, h3, h4⟩ := ha.started
  have lift : ∀ c : ZoneContext, c.state = .phase ph → c.stepIndex = (p.ctx z).stepIndex →
      c.activeCopy = (p.ctx z).activeCopy → c.stepClock = (p.ctx z).stepClock → c.minuteTimer = (p.ctx z).minuteTimer →
      c.runRecord = (p.ctx z).runRecord → c.runClock = (p.ctx z).runClock →
      (({ p.unit z with ctx := c } : ZoneUnit)).AtFirst ph i x 1 := fun c k0 k1 k2 k3 k4 k5 k6 =>
    ⟨.inl k0, k1.trans ha.step, k2.trans ha.copy, k3.trans ha.clock, k4.trans ha.minute, e,
      ⟨l, m, k5.trans h1, by omega⟩, h2, h3, h4.trans k6.symm⟩
  have hin : (p.ctx z).state.inPhase = true := by rw [hs]; rfl
  by_cases hany : (p.ctx z).holds.any = true
  · rw [g.joins (.inr ⟨hin, hany⟩), Plant.put_unit_self, Plant.put_ctx_self]
    exact ⟨lift _ hs rfl rfl rfl rfl rfl rfl, by simp [hs, ZoneState.runs], rfl⟩
  · rw [Bool.not_eq_true] at hany
    by_cases hw : (p.unit z).climate.Away
    · rw [g.pends hin hany hw, Plant.put_unit_self, Plant.put_ctx_self]
      exact ⟨lift _ hs rfl rfl rfl rfl rfl rfl, by simp [hs, ZoneState.runs], rfl⟩
    · rw [g.holds ph hs hany hw, Plant.enqueue_unit, Plant.enqueue_ctx, Plant.put_unit_self, Plant.put_ctx_self]
      refine ⟨?_, rfl, rfl⟩
      have hsh : ({ p.ctx z with holds := h } : ZoneContext).Shows e 0 := ⟨l, m, h1, h1'⟩
      obtain ⟨g1, g2, g3, g4, g5, g6, g7⟩ := ({ p.ctx z with holds := h } : ZoneContext).gain_fields
        (({ p.unit z with ctx := { p.ctx z with holds := h } } : ZoneUnit).event .held none)
      exact ⟨.inr ⟨.inl rfl, rfl⟩, g3.trans ha.step, g4.trans ha.copy, g5.trans ha.clock, g6.trans ha.minute, e,
        hsh.gain (by omega) _, h2, h3, h4.trans g7.symm⟩

/-- A zone that runs is judged: it stays, or enters SAFE (R138, R139). -/
theorem Plant.judgeWatched_caused (p : Plant) (z : Zone) :
    p.Caused (p.judgeWatched z) z
      { door := (p.unit z).causes.door || p.doorOpen
        sensor := (p.unit z).causes.sensor || (p.unit z).sensorFault
        fan := (p.unit z).causes.fan || p.overdue z
        overtemp := (p.unit z).causes.overtemp || (p.unit z).overtemp p.kiln } := by
  unfold Plant.judgeWatched
  exact p.changeCauses_caused z _

theorem ZoneState.runs_iff (s : ZoneState) : s.runs = true ↔ s = .held ∨ s.inPhase = true := by
  cases s <;> simp [ZoneState.runs, ZoneState.inPhase]

/-- What entering the first phase leaves (R82, R83, R90, R91, R138). -/
theorem Plant.enterFirstPhase_first (p : Plant) (z : Zone) : p.FirstPhase (p.enterFirstPhase z) z := by
  have form : ∀ ph i x, p.FirstEntry z ph i x →
      let r := ((p.context z fun c => { c with startTimeout := none, ready := false, minuteTimer := some 60000 }).enterStep
        z ph i .measured).record z .started
      p.enterFirstPhase z = (if p.holdIn then r.joinHold z fun h => { h with line := true } else r).judgeWatched z := by
    intro ph i x hf r
    unfold Plant.enterFirstPhase
    rw [PhaseEntries.first_eq hf.1 hf.2.1]
  refine ⟨(Plant.Only.enterFirstPhase p z).beside (.enterFirstPhase p z), (Plant.Kept.enterFirstPhase p z).lines, ?_, ?_⟩
  · intro ph i x hs hf
    have hsu : (p.unit z).ctx.state = .starting := hs
    rw [form ph i x hf]
    generalize hq : (p.context z fun c => { c with startTimeout := none, ready := false, minuteTimer := some 60000 }) = q
    have hqs : (q.ctx z).state = .starting := by rw [← hq, Plant.context_eq_put, Plant.put_ctx_self]; exact hs
    have hqm : (q.ctx z).minuteTimer = some 60000 := by rw [← hq, Plant.context_eq_put, Plant.put_ctx_self]; rfl
    have hqx : q.work.records.get i = some x := by rw [← hq]; exact hf.2.2
    obtain ⟨f1, f2⟩ := q.enterStep_facts z ph i x .measured hqx
    generalize q.enterStep z ph i .measured = t at f1 f2
    have ft : t.unit z = { t.unit z with ctx := ((q.unit z).stepped ph i x q.kiln.maximumDb (q.work.config.zones.get z).dwell).ctx } := by
      rw [← f1]; rfl
    have fr : ((t.record z .started).unit z).AtFirst ph i x 0 ∧ ((t.record z .started).ctx z).state = .phase ph ∧
        .zone z .phaseChanged ∈ (t.record z .started).alerts := by
      rw [Plant.record_eq, Plant.put_unit_self, Plant.put_ctx_self, Plant.put_alerts]
      obtain ⟨g1, g2, g3, g4, g5, g6, g7⟩ := (t.ctx z).gain_fields ((t.unit z).event .started none)
      rw [f1] at g1 g2 g3 g4 g5 g6 g7
      rw [f1]
      refine ⟨⟨.inl g1, g3, g4, g5, g6.trans hqm, (t.unit z).event .started none, ?_, rfl, ?_, ?_⟩, g1, ?_⟩
      · unfold ZoneContext.gain
        split
        · exact ⟨_, [], rfl, Nat.le_refl 0⟩
        · exact ⟨_, [], rfl, Nat.le_refl 0⟩
      · have : (t.unit z).ctx.stepIndex = some i := by rw [← Plant.ctx_eq, f1]; rfl
        exact this
      · have : (t.unit z).ctx.runClock = (t.ctx z).runClock := rfl
        refine Eq.trans ?_ g7.symm
        exact this.trans (by rw [f1])
      · rw [f2]
        have : ZoneState.starting ≠ .phase ph := nofun
        rw [hqs, if_neg this]
        exact mem_insertAlert.2 (.inl rfl)
    generalize t.record z .started = r at fr
    obtain ⟨fa, fs, fp⟩ := fr
    have main : ∀ v : Plant, (v.unit z).AtFirst ph i x 1 → (v.ctx z).state.runs = true →
        .zone z .phaseChanged ∈ v.alerts →
        (((v.judgeWatched z).unit z).AtFirst ph i x 2) ∧ .zone z .phaseChanged ∈ (v.judgeWatched z).alerts := by
      intro v va vr vp
      refine ⟨?_, (Plant.Kept.judgeWatched v z).alerts _ vp⟩
      have c := v.judgeWatched_caused z
      have hr := (ZoneState.runs_iff _).1 vr
      obtain ⟨e, ⟨l, m, k1, k1'⟩, k2, k3, k4⟩ := va.started
      generalize ({ door := _, sensor := _, fan := _, overtemp := _ } : SafeCauses) = causes at c
      by_cases hc : causes.any = true
      · have hsec := c.enters hr hc
        unfold Plant.Secured at hsec
        rw [hsec, Plant.enqueue_unit, Plant.put_unit_self]
        refine va.secured (by omega) ?_ _ _
        intro h0
        have : (v.ctx z).state = .safe := h0
        rw [this] at vr
        simp [ZoneState.runs] at vr
      · rw [c.stays hr (by simpa using hc), Plant.put_unit_self]
        exact ⟨va.state, va.step, va.copy, va.clock, va.minute, e, ⟨l, m, k1, by omega⟩, k2, k3, k4⟩
    have out : ∀ v : Plant, (v.unit z).AtFirst ph i x 2 → .zone z .phaseChanged ∈ v.alerts →
        ((v.ctx z).state = .phase ph ∨
          (((v.ctx z).state = .held ∨ (v.ctx z).state = .safe) ∧ (v.ctx z).underlying = some ph)) ∧
        (v.ctx z).stepIndex = some i ∧ (v.ctx z).activeCopy = some x ∧ (v.ctx z).stepClock = 0 ∧
        (v.ctx z).minuteTimer = some 60000 ∧ .zone z .phaseChanged ∈ v.alerts ∧
        ∃ e ∈ (v.ctx z).runRecord, e.kind = .started ∧ e.step = some i ∧ e.minute = (v.ctx z).runClock := by
      intro v va vp
      obtain ⟨e, ⟨l, m, k1, k1'⟩, k2, k3, k4⟩ := va.started
      have : (v.ctx z).runRecord = l ++ e :: m := k1
      exact ⟨va.state, va.step, va.copy, va.clock, va.minute, vp, e, by rw [this]; simp, k2, k3, k4⟩
    split
    · have g := r.joinHold_gained z (fun h => { h with line := true }) (by simp [HoldCauses.any])
      obtain ⟨j1, j2, -⟩ := g.atFirst fs fa
      have := main _ j1 j2 ((Plant.Kept.joinHold r z _).alerts _ fp)
      exact out _ this.1 this.2
    · obtain ⟨e, ⟨l, m, k1, k1'⟩, k2, k3, k4⟩ := fa.started
      have := main r ⟨fa.state, fa.step, fa.copy, fa.clock, fa.minute, e, ⟨l, m, k1, by omega⟩, k2, k3, k4⟩
        (by rw [fs]; rfl) fp
      exact out _ this.1 this.2
  · intro ph i x hs hf hc v r
    have hr : ((p.context z fun c => { c with startTimeout := none, ready := false, minuteTimer := some 60000 }).enterStep
        z ph i .measured).record z .started = r := p.entered_eq z ph i x hf.2.2 hs
    have e := form ph i x hf
    rw [hr] at e
    have hru : r.unit z = v := by simp [r]
    have hrc : r.ctx z = v.ctx := by rw [Plant.ctx_eq, hru]
    have watched : ∀ t : Plant, (t.ctx z).state.runs = true → (t.unit z).causes.any = false →
        ∀ causes, t.Stand z causes →
          (causes.any = false → t.judgeWatched z = t) ∧ (causes.any = true → t.Secured (t.judgeWatched z) z causes) := by
      intro t t1 t2 causes st
      have hcs : causes =
          { door := t.doorOpen, sensor := (t.unit z).sensorFault, fan := t.overdue z,
            overtemp := (t.unit z).overtemp t.kiln } := by
        have b : ∀ {x y : Bool}, (x = true ↔ y = true) → x = y := by decide
        have h1 := b st.door
        have h2 : causes.sensor = (t.unit z).sensorFault :=
          b (st.sensor.trans (by unfold ZoneUnit.sensorFault; simp))
        have h3 : causes.fan = t.overdue z := b (st.fan.trans (by unfold Plant.overdue; simp))
        have h4 : causes.overtemp = (t.unit z).overtemp t.kiln :=
          b (st.overtemp.trans (by unfold ZoneUnit.overtemp; rw [ZoneUnit.dbSatisfies_iff]; simp))
        rw [← h1, ← h2, ← h3, ← h4]
      have j := t.judgeWatched_runs z t1 t2
      simp only [← hcs] at j
      exact ⟨fun h => by rw [j, if_neg (by simp [h])], fun h => by rw [j, if_pos h]; exact t.enterSafe_secured z causes⟩
    by_cases hh : p.holdIn = true
    · refine ⟨r.joinHold z fun h => { h with line := true }, fun h => by simp [hh] at h, fun _ => ?_, ?_⟩
      · have g := r.joinHold_gained z (fun h => { h with line := true }) (by simp [HoldCauses.any])
        rw [hrc] at g
        exact g
      · have hst : (r.ctx z).state = .phase ph := by rw [hrc]; rfl
        have j := r.joinHold_phase z (fun h => { h with line := true }) hst
        rw [e, if_pos hh]
        exact watched _ j.runs (by rw [j.causes, hru]; exact hc)
    · refine ⟨r, fun _ => rfl, fun h => absurd h hh, ?_⟩
      rw [e, if_neg hh]
      exact watched r (by rw [hrc]; rfl) (by rw [hru]; exact hc)

/-! ### The group -/

theorem Plant.mem_startingSet (p : Plant) (z : Zone) : z ∈ p.startingSet ↔ p.Standing z := by
  unfold Plant.startingSet Plant.Standing Plant.grouped Plant.items
  rw [List.mem_filter]
  simp only [Bool.and_eq_true, beq_iff_eq]
  exact and_iff_right (by cases z <;> decide)

/-- What the judgement of the group leaves (R107). -/
theorem Plant.judgeGroup_judged (p : Plant) : p.GroupJudged p.judgeGroup where
  stops h := by
    unfold Plant.judgeGroup
    refine if_pos ?_
    rw [List.isEmpty_iff, List.eq_nil_iff_forall_not_mem]
    exact fun y hy => h y ((p.mem_startingSet y).1 hy)
  waits := by
    rintro ⟨y, hy, hr⟩
    have hm := (p.mem_startingSet y).2 hy
    unfold Plant.judgeGroup
    dsimp only
    rw [if_neg (by rw [List.isEmpty_iff]; exact List.ne_nil_of_mem hm), if_neg]
    rw [List.all_eq_true]
    exact fun e => by simpa [hr] using e y hm
  enters := by
    rintro ⟨y, hy⟩ hr
    have hm := (p.mem_startingSet y).2 hy
    have e : p.judgeGroup = p.startingSet.foldl Plant.enterFirstPhase { p with groupTimeout := none } := by
      unfold Plant.judgeGroup
      dsimp only
      rw [if_neg (by rw [List.isEmpty_iff]; exact List.ne_nil_of_mem hm), if_pos]
      rw [List.all_eq_true]
      exact fun y hy => hr y ((p.mem_startingSet y).1 hy)
    rw [e]
    have test : ∀ z, (p.grouped z && (p.ctx z).state == .starting) = true ↔ p.Standing z := fun z => by
      unfold Plant.Standing Plant.grouped Plant.items; simp
    refine Plant.chain_filter _ _ (fun z q hz => ?_) (fun z q hz => ?_) Zone.order _
    · exact ⟨fun h => absurd ((test z).1 hz) h, fun _ => Plant.enterFirstPhase_first q z⟩
    · exact ⟨fun _ => rfl, fun h => by rw [← test z, hz] at h; cases h⟩

/-- What the evaluation of a zone in STARTING leaves (R81, R82, R107). -/
theorem Plant.evaluateStart_judged (p : Plant) (z : Zone) (hs : (p.ctx z).state = .starting) :
    p.StartJudged (p.evaluateStart z) z := by
  have hm : p.markReady z = p.put z { p.unit z with ctx := { p.ctx z with ready := !(p.unmet z).any } } := rfl
  have meets := p.meets_iff z
  refine ⟨fun hg h => ?_, fun hg h => ?_, fun ready hg h => ?_⟩ <;>
    (unfold Plant.evaluateStart; rw [if_pos hs]; dsimp only; rw [hm])
  · have hu : (p.unmet z).any = true := by rw [← Bool.not_eq_false]; exact fun e => h (meets.2 e)
    rw [if_neg (by rw [show p.grouped z = false from hg]; simp), Plant.put_ctx_self, if_neg (by simp [hu]), hu]
    rfl
  · rw [if_neg (by rw [show p.grouped z = false from hg]; simp), Plant.put_ctx_self, if_pos (by simp [meets.1 h]),
      meets.1 h]
    exact Plant.enterFirstPhase_first _ z
  · rw [if_pos (show p.grouped z = true from hg)]
    have : ready = !(p.unmet z).any := by
      cases ready
      · cases hu : (p.unmet z).any
        · exact absurd (h.2 (meets.2 hu)) nofun
        · rfl
      · rw [meets.1 (h.1 rfl)]; rfl
    rw [← this]
    exact Plant.judgeGroup_judged _

/-- What the evaluation of every zone in STARTING leaves (R81). -/
theorem Plant.eachStart_judged (p : Plant) : p.StartsJudged (p.eachZone Plant.evaluateStart) :=
  Plant.chain_foldl _ (fun z q => ⟨fun h => if_neg h, fun h => q.evaluateStart_judged z h⟩) _ p

/-! ### Start events -/

/-- What one member taken by a group start becomes (R105). -/
theorem Plant.takeMember_eq (p : Plant) (z : Zone) (source : StartSource) :
    (p.fieldEnabled = false →
      p.takeMember z source =
        (p.put z ((p.unit z).failed source .fieldDisabled none)).raise (.zone z .startFailed)) ∧
    (∀ f, p.fieldEnabled = true → p.validate z = some f →
      p.takeMember z source =
        (p.put z ((p.unit z).failed source .badSchedule (some f))).raise (.zone z .startFailed)) ∧
    (p.fieldEnabled = true → p.validate z = none → p.takeMember z source = p.put z ((p.unit z).begun source)) := by
  refine ⟨fun h => ?_, fun f h hv => ?_, fun h hv => ?_⟩ <;> unfold Plant.takeMember Plant.startObstacle
  · simp only [h, Bool.not_false, if_true]; rfl
  · simp only [h, Bool.not_true, Bool.false_eq_true, if_false, hv]; rfl
  · simp only [h, Bool.not_true, Bool.false_eq_true, if_false, hv]
    unfold Plant.putStarting ZoneUnit.begun
    rw [Plant.zone_eq_put, FanState.start_eq]

/-- What taking some zones in a group start leaves (R105). -/
structure Plant.Taken (p q : Plant) (zs : List Zone) (src : Zone → StartSource) : Prop where
  kept : p.Kept q
  lines : q.lines = p.lines
  queue : q.queue = p.queue
  group : q.groupTimeout = p.groupTimeout
  out : ∀ y, y ∉ zs → q.unit y = p.unit y
  disabled : ∀ y ∈ zs, p.fieldEnabled = false → q.unit y = (p.unit y).failed (src y) .fieldDisabled none
  finding :
    ∀ y ∈ zs, ∀ f, p.fieldEnabled = true → p.validate y = some f →
      q.unit y = (p.unit y).failed (src y) .badSchedule (some f)
  begun : ∀ y ∈ zs, p.fieldEnabled = true → p.validate y = none → q.unit y = (p.unit y).begun (src y)
  alerts :
    ∀ a, a ∈ q.alerts ↔
      a ∈ p.alerts ∨ ∃ y ∈ zs, a = .zone y .startFailed ∧ ¬(p.fieldEnabled = true ∧ p.validate y = none)

theorem Plant.takeMembers_taken (zs : List Zone) (src : Zone → StartSource) (hn : zs.Nodup) (p : Plant) :
    p.Taken (zs.foldl (fun q z => q.takeMember z (src z)) p) zs src := by
  induction zs generalizing p with
  | nil => exact ⟨.refl p, rfl, rfl, rfl, fun _ _ => rfl, nofun, nofun, nofun, fun a => by simp⟩
  | cons z zs ih =>
    rw [List.nodup_cons] at hn
    obtain ⟨t1, t2, t3⟩ := p.takeMember_eq z (src z)
    have hk := Plant.Kept.takeMember p z (src z)
    have h := ih hn.2 (p.takeMember z (src z))
    rw [List.foldl_cons]
    generalize hq : p.takeMember z (src z) = q at h hk t1 t2 t3
    have hf : q.fieldEnabled = p.fieldEnabled := hk.fieldEnabled
    have hv : ∀ y, q.validate y = p.validate y := fun y => by unfold Plant.validate; rw [hk.work]
    have shape : (∃ u, q = p.put z u ∧ p.fieldEnabled = true ∧ p.validate z = none) ∨
        (∃ u, q = (p.put z u).raise (.zone z .startFailed) ∧ ¬(p.fieldEnabled = true ∧ p.validate z = none)) := by
      cases hp : p.fieldEnabled with
      | false => exact .inr ⟨_, t1 hp, by simp⟩
      | true =>
        cases hw : p.validate z with
        | none => exact .inl ⟨_, t3 hp hw, rfl, rfl⟩
        | some f => exact .inr ⟨_, t2 f hp hw, by simp⟩
    have others : ∀ y, y ≠ z → q.unit y = p.unit y := by
      intro y hy
      rcases shape with ⟨u, e, -⟩ | ⟨u, e, -⟩ <;> rw [e]
      · exact Plant.put_unit_ne p u (Ne.symm hy)
      · exact Plant.put_unit_ne p u (Ne.symm hy)
    have same : q.lines = p.lines ∧ q.queue = p.queue ∧ q.groupTimeout = p.groupTimeout := by
      rcases shape with ⟨u, e, -⟩ | ⟨u, e, -⟩ <;> rw [e] <;> exact ⟨rfl, rfl, rfl⟩
    have al : ∀ a, a ∈ q.alerts ↔
        a ∈ p.alerts ∨ (a = .zone z .startFailed ∧ ¬(p.fieldEnabled = true ∧ p.validate z = none)) := by
      intro a
      rcases shape with ⟨u, e, h1, h2⟩ | ⟨u, e, h1⟩ <;> rw [e]
      · simp [h1, h2]
      · rw [show ((p.put z u).raise (.zone z .startFailed)).alerts = insertAlert (.zone z .startFailed) p.alerts from rfl,
          mem_insertAlert]
        constructor
        · rintro (h | h)
          · exact .inr ⟨h, h1⟩
          · exact .inl h
        · rintro (h | h)
          · exact .inr h
          · exact .inl h.1
    have ne : ∀ y ∈ zs, y ≠ z := fun y hy e => hn.1 (e ▸ hy)
    refine ⟨hk.trans h.kept, h.lines.trans same.1, h.queue.trans same.2.1, h.group.trans same.2.2, ?_, ?_, ?_, ?_, ?_⟩
    · intro y hy
      rw [List.mem_cons, not_or] at hy
      exact (h.out y hy.2).trans (others y hy.1)
    · intro y hy hp
      rcases List.mem_cons.1 hy with rfl | hy
      · rw [h.out y hn.1, t1 hp]; exact Plant.put_unit_self p y _
      · rw [h.disabled y hy (hf.trans hp), others y (ne y hy)]
    · intro y hy f hp hw
      rcases List.mem_cons.1 hy with rfl | hy
      · rw [h.out y hn.1, t2 f hp hw]; exact Plant.put_unit_self p y _
      · rw [h.finding y hy f (hf.trans hp) ((hv y).trans hw), others y (ne y hy)]
    · intro y hy hp hw
      rcases List.mem_cons.1 hy with rfl | hy
      · rw [h.out y hn.1, t3 hp hw]; exact Plant.put_unit_self p y _
      · rw [h.begun y hy (hf.trans hp) ((hv y).trans hw), others y (ne y hy)]
    · intro a
      rw [h.alerts a, al a, hf]
      simp only [hv, List.mem_cons, exists_eq_or_imp, or_assoc]

/-- What marking some zones ready or not leaves (R81, R107). -/
structure Plant.Marked (p q : Plant) (zs : List Zone) : Prop where
  kept : p.Kept q
  lines : q.lines = p.lines
  queue : q.queue = p.queue
  alerts : q.alerts = p.alerts
  group : q.groupTimeout = p.groupTimeout
  out : ∀ y, y ∉ zs → q.unit y = p.unit y
  mark : ∀ y ∈ zs, q.unit y = { p.unit y with ctx := { p.ctx y with ready := !(p.unmet y).any } }

/-- The conditions of a zone are read from what the sequencer's operations keep and from the debounced levels (R81). -/
theorem Plant.Kept.unmet {p q : Plant} (h : p.Kept q) (hl : q.lines = p.lines) (y : Zone) : q.unmet y = p.unmet y := by
  have hu := h.units y
  have hi : q.items y = p.items y := by unfold Plant.items; rw [h.work]
  have hd : q.doorOpen = p.doorOpen := by
    unfold Plant.doorOpen Plant.anyLine Plant.lineItems; rw [h.work, hl]
  have hp : q.proof y = p.proof y := by
    unfold Plant.proof Plant.anyLine Plant.lineItems; rw [h.work, hl]
  have hk : q.kiln = p.kiln := by unfold Plant.kiln; rw [h.work]
  unfold Plant.unmet ZoneUnit.dbSatisfies
  dsimp only
  rw [hi, hd, hp, hk, hu.aggregate, hu.db, hu.wb]

theorem Plant.markReadys_marked (zs : List Zone) (hn : zs.Nodup) (p : Plant) :
    p.Marked (zs.foldl Plant.markReady p) zs := by
  induction zs generalizing p with
  | nil => exact ⟨.refl p, rfl, rfl, rfl, rfl, fun _ _ => rfl, nofun⟩
  | cons z zs ih =>
    rw [List.nodup_cons] at hn
    have hk := Plant.Kept.markReady p z
    have h := ih hn.2 (p.markReady z)
    have others : ∀ y, y ≠ z → (p.markReady z).unit y = p.unit y := fun y hy => (Plant.Only.context p z _).others y hy
    refine ⟨hk.trans h.kept, h.lines, h.queue, h.alerts, h.group, ?_, ?_⟩
    · intro y hy
      rw [List.mem_cons, not_or] at hy
      exact (h.out y hy.2).trans (others y hy.1)
    · intro y hy
      rcases List.mem_cons.1 hy with rfl | hy
      · rw [List.foldl_cons, h.out y hn.1]
        unfold Plant.markReady
        rw [Plant.context_eq_put, Plant.put_unit_self]; rfl
      · have hy' : y ≠ z := fun e => hn.1 (e ▸ hy)
        rw [List.foldl_cons, h.mark y hy, others y hy', Plant.ctx_eq, others y hy', hk.unmet rfl]
        rfl

/-- What a group start leaves (R105, R106). -/
theorem Plant.groupStart_started (p : Plant) (source : StartSource) (hit : Zone → Bool) (initiating : Zone → Prop)
    (hh : ∀ z, hit z = true ↔ initiating z) : p.GroupStarted (p.groupStart source hit) source initiating := by
  unfold Plant.GroupStarted
  intro taken started
  have hn : ∀ t : Zone → Bool, (Zone.order.filter t).Nodup := fun t => (by decide : Zone.order.Nodup).filter t
  have mem : ∀ (t : Zone → Bool) (z : Zone), z ∈ Zone.order.filter t ↔ t z = true := fun t z => by
    rw [List.mem_filter]; exact and_iff_right (by cases z <;> decide)
  have tk : ∀ z, (p.grouped z && (p.ctx z).state == .idle) = true ↔ taken z := fun z => by
    simp only [taken, Plant.grouped, Plant.items]; simp
  generalize hzs : Zone.order.filter (fun z => p.grouped z && (p.ctx z).state == .idle) = zs
  have zmem : ∀ z, z ∈ zs ↔ taken z := fun z => by rw [← hzs, mem]; exact tk z
  have znd : zs.Nodup := hzs ▸ hn _
  have T := Plant.takeMembers_taken zs (fun z => if hit z then source else .group) znd p
  generalize hq : zs.foldl (fun q z => q.takeMember z (if hit z then source else .group)) p = q at T
  have src : ∀ z s, ((initiating z ∧ s = source) ∨ (¬initiating z ∧ s = .group)) →
      (if hit z then source else StartSource.group) = s := by
    rintro z s (⟨h, rfl⟩ | ⟨h, rfl⟩)
    · rw [if_pos ((hh z).2 h)]
    · rw [if_neg fun e => h ((hh z).1 e)]
  have st : ∀ z, z ∈ zs.filter (fun z => (q.ctx z).state == .starting) ↔ started z := by
    intro z
    rw [List.mem_filter, zmem]
    simp only [beq_iff_eq]
    refine ⟨fun ⟨h1, h2⟩ => ?_, fun h => ⟨h.1, ?_⟩⟩
    · have hz := (zmem z).2 h1
      cases hp : p.fieldEnabled with
      | false =>
        rw [Plant.ctx_eq, T.disabled z hz hp] at h2
        have : (p.ctx z).state = .starting := h2
        rw [h1.2] at this
        cases this
      | true =>
        cases hv : p.validate z with
        | none => exact ⟨h1, hp, hv⟩
        | some f =>
          rw [Plant.ctx_eq, T.finding z hz f hp hv] at h2
          have : (p.ctx z).state = .starting := h2
          rw [h1.2] at this
          cases this
    · rw [Plant.ctx_eq, T.begun z ((zmem z).2 h.1) h.2.1 h.2.2]; rfl
  have al : ∀ a, a ∈ q.alerts ↔ a ∈ p.alerts ∨ ∃ z, a = .zone z .startFailed ∧ taken z ∧ ¬started z := by
    intro a
    rw [T.alerts a]
    refine or_congr_right ⟨?_, ?_⟩
    · rintro ⟨y, hy, e, h⟩
      exact ⟨y, e, (zmem y).1 hy, fun k => h k.2⟩
    · rintro ⟨y, e, hy, h⟩
      exact ⟨y, (zmem y).2 hy, e, fun k => h ⟨hy, k⟩⟩
  have un : ∀ z s, ((initiating z ∧ s = source) ∨ (¬initiating z ∧ s = .group)) →
      (¬taken z → q.unit z = p.unit z) ∧
      (taken z → p.fieldEnabled = false → q.unit z = (p.unit z).failed s .fieldDisabled none) ∧
      (∀ f, taken z → p.fieldEnabled = true → p.validate z = some f →
        q.unit z = (p.unit z).failed s .badSchedule (some f)) ∧ (started z → q.unit z = (p.unit z).begun s) := by
    intro z s hs
    rw [← src z s hs]
    exact ⟨fun h => T.out z fun e => h ((zmem z).1 e), fun h => T.disabled z ((zmem z).2 h),
      fun f h => T.finding z ((zmem z).2 h) f, fun h => T.begun z ((zmem z).2 h.1) h.2.1 h.2.2⟩
  unfold Plant.groupStart
  dsimp only
  rw [hzs, hq]
  by_cases he : zs.filter (fun z => (q.ctx z).state == .starting) = []
  · have no : ∀ z, ¬started z := fun z h => by have := (st z).2 h; rw [he] at this; cases this
    rw [if_pos (by rw [List.isEmpty_iff]; exact he)]
    refine ⟨q, T.kept.same, T.lines, T.queue, al, fun ⟨z, h⟩ => absurd h (no z), fun _ => T.group, ?_, fun _ => rfl,
      fun ⟨z, h⟩ => absurd h (no z)⟩
    intro z s hs
    obtain ⟨u1, u2, u3, -⟩ := un z s hs
    exact ⟨u1, u2, u3, fun _ _ h => absurd h (no z)⟩
  · obtain ⟨w, hw⟩ := List.exists_mem_of_ne_nil _ he
    rw [if_neg (by rw [List.isEmpty_iff]; exact he)]
    have ndf : (zs.filter fun z => (q.ctx z).state == .starting).Nodup := znd.filter _
    have standing : p.startingSet.isEmpty = true ↔ ∀ z, ¬p.Standing z := by
      rw [List.isEmpty_iff, List.eq_nil_iff_forall_not_mem]
      simp only [Plant.mem_startingSet]
    generalize hr0 : (if p.startingSet.isEmpty = true then
      { q with groupTimeout := Timer.minutes p.kiln.startTimeout } else q) = r0
    have r0k : q.Kept r0 ∧ r0.lines = q.lines ∧ r0.queue = q.queue ∧ r0.alerts = q.alerts ∧ ∀ z, r0.unit z = q.unit z := by
      rw [← hr0]; split
      · exact ⟨.groupTimeout _ _, rfl, rfl, rfl, fun _ => rfl⟩
      · exact ⟨.refl _, rfl, rfl, rfl, fun _ => rfl⟩
    have M := Plant.markReadys_marked _ ndf r0
    refine ⟨_, (T.kept.trans (r0k.1.trans M.kept)).same, M.lines.trans (r0k.2.1.trans T.lines),
      M.queue.trans (r0k.2.2.1.trans T.queue), ?_, ?_, ?_, ?_, fun h => absurd ((st w).1 hw) (h w),
      fun _ => Plant.judgeGroup_judged _⟩
    · intro a; rw [M.alerts, r0k.2.2.2.1]; exact al a
    · intro _ hs
      rw [M.group, ← hr0, if_pos (standing.2 hs)]; rfl
    · rintro (h | ⟨z, h⟩)
      · exact absurd ((st w).1 hw) (h w)
      · rw [M.group, ← hr0, if_neg fun e => standing.1 e z h]; exact T.group
    · intro z s hs
      obtain ⟨u1, u2, u3, u4⟩ := un z s hs
      have keep : ¬started z →
          ((zs.filter fun z => (q.ctx z).state == .starting).foldl Plant.markReady r0).unit z = q.unit z := fun h => (M.out z fun e => h ((st z).1 e)).trans (r0k.2.2.2.2 z)
      refine ⟨fun h => (keep fun k => h k.1).trans (u1 h),
        fun h hp => (keep fun k => absurd (hp.symm.trans k.2.1) nofun).trans (u2 h hp),
        fun f h hp hv => (keep fun k => absurd (hv.symm.trans k.2.2) nofun).trans (u3 f h hp hv), fun ready hr h => ?_⟩
      have hmeet : (p.unmet z).any = !ready := by
        have := p.meets_iff z
        rw [← hr] at this
        cases ready <;> cases hu : (p.unmet z).any <;> simp_all
      have hun : r0.unmet z = p.unmet z := (T.kept.trans r0k.1).unmet (r0k.2.1.trans T.lines) z
      rw [M.mark z ((st z).2 h), hun, hmeet, Plant.ctx_eq, r0k.2.2.2.2 z, u4 h, Bool.not_not]

/-- The start of a zone that is no member (R79). -/
theorem Plant.startAlone_eq (p : Plant) (z : Zone) (source : StartSource) :
    p.startAlone z source =
      (p.put z
        { (p.unit z).begun source with
          ctx :=
            { ((p.unit z).begun source).ctx with
              startTimeout := some (p.kiln.startTimeout * 60000) } }).evaluateStart z := by
  unfold Plant.startAlone Plant.putStarting
  rw [Plant.zone_eq_put, Plant.context_eq_put, Plant.put_put, Plant.put_unit_self, FanState.start_eq]
  rfl

theorem Plant.Only.evaluateStart (p : Plant) (z : Zone) (h : p.grouped z = false) :
    Plant.Only z p (p.evaluateStart z) := by
  unfold Plant.evaluateStart
  simp only [h, Bool.false_eq_true, if_false]
  exact .ite (.ite ((Plant.Only.context p z _).trans (.enterFirstPhase _ z)) (.context p z _)) (.refl p)

/-- What a start event leaves (R78, R80, R85, R105). -/
theorem Plant.startEvent_started (p : Plant) (source : StartSource) (inMask : StartMask → Bool) :
    p.EventStarted (p.startEvent source inMask) source inMask := by
  unfold Plant.EventStarted
  intro hit grouped
  have hb : ∀ z, ((p.ctx z).state == .idle && inMask (p.items z).startMask) = true ↔ hit z := fun z => by
    simp only [hit, Plant.items]; simp
  have gb : ∀ z, p.grouped z = true ↔ grouped z := fun z => Iff.rfl
  have lone : ∀ z, ((((p.ctx z).state == .idle && inMask (p.items z).startMask)) && !p.grouped z) = true ↔
      hit z ∧ ¬grouped z := fun z => by rw [Bool.and_eq_true, hb, ← gb]; simp
  -- a zone that has not been treated stands as it did in `p`
  have key : ∀ (zs : List Zone) (q : Plant), zs.Nodup → p.Kept q → (∀ y ∈ zs, q.unit y = p.unit y) →
      Plant.Chain
        (fun z r r' =>
          let u := p.unit z
          (¬(hit z ∧ ¬grouped z) → r' = r) ∧
          (hit z → ¬grouped z →
            (p.fieldEnabled = false →
              r' = (r.put z (u.failed source .fieldDisabled none)).raise (.zone z .startFailed)) ∧
            (∀ f, p.fieldEnabled = true → p.validate z = some f →
              r' = (r.put z (u.failed source .badSchedule (some f))).raise (.zone z .startFailed)) ∧
            (p.fieldEnabled = true → p.validate z = none →
              let v := u.begun source
              (r.put z
                  { v with ctx := { v.ctx with startTimeout := some (p.kiln.startTimeout * 60000) } }).StartJudged r' z)))
        zs q
        ((zs.filter fun z => ((p.ctx z).state == .idle && inMask (p.items z).startMask) && !p.grouped z).foldl
          (fun q z =>
            match p.startObstacle z source with
            | some f => q.failStart z f
            | none => q.startAlone z source) q) := by
    intro zs
    induction zs with
    | nil => intro q _ _ _; rfl
    | cons z zs ih =>
      intro q hn hk hu
      rw [List.nodup_cons] at hn
      by_cases hz : hit z ∧ ¬grouped z
      · rw [List.filter_cons, if_pos ((lone z).2 hz), List.foldl_cons]
        have hq : q.unit z = p.unit z := hu z List.mem_cons_self
        refine ⟨_, ⟨fun h => absurd hz h, fun _ hg => ⟨fun hp => ?_, fun f hp hv => ?_, fun hp hv => ?_⟩⟩, ih _ hn.2 ?_ ?_⟩
        · unfold Plant.startObstacle
          simp only [hp, Bool.not_false, if_true]
          rw [← hq]; rfl
        · unfold Plant.startObstacle
          simp only [hp, Bool.not_true, Bool.false_eq_true, if_false, hv]
          rw [← hq]; rfl
        · unfold Plant.startObstacle
          simp only [hp, Bool.not_true, Bool.false_eq_true, if_false, hv]
          have e : q.kiln = p.kiln := by unfold Plant.kiln; rw [hk.work]
          rw [Plant.startAlone_eq, hq, e]
          exact Plant.evaluateStart_judged _ z (by rw [Plant.put_ctx_self]; rfl)
        · refine hk.trans ?_
          split
          · exact .failStart q z _
          · exact .startAlone q z source
        · have ho : Plant.Only z q
              (match p.startObstacle z source with
              | some f => q.failStart z f
              | none => q.startAlone z source) := by
            split
            · exact (Plant.Only.context q z _).trans (.raise _ _)
            · have hg : q.grouped z = false := by
                unfold Plant.grouped Plant.items; rw [hk.work]; exact Bool.eq_false_iff.2 hz.2
              rw [Plant.startAlone_eq]
              exact (Plant.Only.put q z _).trans (Plant.Only.evaluateStart _ z hg)
          exact fun y hy => (ho.others y fun e => hn.1 (e ▸ hy)).trans (hu y (List.mem_cons_of_mem _ hy))
      · rw [List.filter_cons, if_neg fun e => hz ((lone z).1 e)]
        exact ⟨q, ⟨fun _ => rfl, fun h1 h2 => absurd ⟨h1, h2⟩ hz⟩, ih q hn.2 hk fun y hy => hu y (List.mem_cons_of_mem _ hy)⟩
  have first := key Zone.order p (by decide) (.refl p) fun _ _ => rfl
  unfold Plant.startEvent
  dsimp only
  generalize hq : (Zone.order.filter fun z =>
      ((p.ctx z).state == .idle && inMask (p.items z).startMask) && !p.grouped z).foldl
    (fun q z =>
      match p.startObstacle z source with
      | some f => q.failStart z f
      | none => q.startAlone z source) p = q at first
  refine ⟨q, first, fun h => if_neg fun e => ?_, fun ⟨z, h1, h2⟩ => ?_⟩
  · rw [List.any_eq_true] at e
    obtain ⟨z, -, hz⟩ := e
    rw [Bool.and_eq_true] at hz
    exact h z ((hb z).1 hz.1) ((gb z).1 hz.2)
  · rw [if_pos]
    · exact q.groupStart_started source _ hit hb
    · rw [List.any_eq_true]
      exact ⟨z, by cases z <;> decide, by rw [Bool.and_eq_true]; exact ⟨(hb z).2 h1, (gb z).2 h2⟩⟩

end Sys2Proof.Machine
end

