-- ==== Sys2Proof/Laws/Granted.lean ====
section
/-! SUPPORT. What the passes and the arbiter can do, said once: the start of a measurement, the end, the start and the completion
of a pass, and the grant. -/

namespace Sys2Proof.Machine

/-! ### Measurements -/

theorem Plant.measurable_iff (p : Plant) (z : Zone) (i : Fin 64) : p.measurable z i = true ↔ p.Scans z i := by
  unfold Plant.measurable Plant.Scans
  rw [Bool.and_eq_true, beq_iff_eq]
  refine and_congr_right fun _ => ?_
  cases h : p.records.get i with
  | none => simp
  | some r => cases hs : r.state <;> simp [hs, ProbeState.scanned]

theorem Plant.not_measurable_iff (p : Plant) (z : Zone) (i : Fin 64) : (!p.measurable z i) = true ↔ ¬p.Scans z i := by
  rw [← Plant.measurable_iff]; simp

theorem Plant.covers_iff (p : Plant) (w : Fin 4) (i : Fin 64) :
    (p.work.config.windows.get w).covers (p.work.probes.get i).bank (p.work.probes.get i).position = true ↔
      p.Covers w i := by
  unfold WindowConfig.covers Plant.Covers
  simp [and_assoc]

/-- The pins of a measurement: the position on the address lines, and the enable of the bank (R5, R6). -/
theorem Straps.muxOn_toNat (s : Straps) {bank : Fin 4} {position : Fin 64} (hb : bank.val < s.banks)
    (hp : position.val < 2 ^ s.addressLines) :
    (s.muxOn bank position).toNat = position.val + 2 ^ (s.addressLines + bank.val) := by
  have key : ∀ a n : Nat, (a = 6 ∧ n = 2) ∨ (a = 5 ∧ n = 3) ∨ (a = 4 ∧ n = 4) → bank.val < n → position.val < 2 ^ a →
      (BitVec.ofNat 8 (position.val % 2 ^ a) ||| BitVec.ofNat 8 (2 ^ (a + bank.val))).toNat =
        position.val + 2 ^ (a + bank.val) := by
    rintro a n (⟨rfl, rfl⟩ | ⟨rfl, rfl⟩ | ⟨rfl, rfl⟩) <;> clear hb hp <;> revert bank position <;> decide
  refine key _ s.banks ?_ hb hp
  unfold Straps.addressLines Straps.banks
  split <;> [simp; split <;> simp]

/-- The measurement of an entry that starts (R6, R9, R10). -/
theorem Plant.startMeasurement_begins (p : Plant) (who : Requester) (i : Fin 64) :
    ∃ (m : Measurement) (mux : BitVec 8),
      p.startMeasurement who i = { p with mux := mux, frontEnd := { inFlight := some m, previous := some m.window } } ∧
        p.Begins who i p.frontEnd.previous m mux := by
  refine ⟨_, _, rfl, rfl, rfl, rfl, rfl, rfl, rfl, ?_, ?_, ?_⟩
  · intro w hw hv
    have h : p.work.config.windowOf (p.work.probes.get i).bank (p.work.probes.get i).position = some w := by
      unfold Configuration.windowOf
      rw [List.find?_eq_some_iff_append]
      refine ⟨(p.covers_iff w i).2 hw, (List.finRange 4).take w.val, (List.finRange 4).drop (w.val + 1), ?_, ?_⟩
      · clear hw hv; revert w; decide
      · intro v hv'
        have : v.val < w.val := by clear hw hv; revert hv'; revert v w; decide
        rw [Bool.not_eq_true', ← Bool.not_eq_true, p.covers_iff v i]
        exact hv v this
    simp only [h, duration, true_and]
    by_cases hs : (p.work.config.windows.get w).switchSettle = true <;>
      by_cases hp : p.frontEnd.previous = some (.window w) <;> simp [hs, hp]
  · intro hw
    have h : p.work.config.windowOf (p.work.probes.get i).bank (p.work.probes.get i).position = none := by
      unfold Configuration.windowOf
      rw [List.find?_eq_none]
      exact fun w _ e => hw w ((p.covers_iff w i).1 e)
    simp [h, duration]
  · intro he
    unfold Straps.addressExists at he
    simp only [Bool.and_eq_true, decide_eq_true_eq] at he
    exact Straps.muxOn_toNat p.straps he.1 he.2

/-! ### Passes -/

/-- What the operations on the pass of zone `z` keep of the scanner. -/
structure Plant.PassKept (p q : Plant) (z : Zone) : Prop where
  work : q.work = p.work
  records : q.records = p.records
  frontEnd : q.frontEnd = p.frontEnd
  others : ∀ y, y ≠ z → (q.unit y).pass = (p.unit y).pass

theorem Plant.PassKept.trans {p q r : Plant} {z : Zone} (h : p.PassKept q z) (k : q.PassKept r z) : p.PassKept r z :=
  ⟨k.work.trans h.work, k.records.trans h.records, k.frontEnd.trans h.frontEnd,
    fun y hy => (k.others y hy).trans (h.others y hy)⟩

theorem Plant.PassKept.put (p : Plant) (z : Zone) (u : ZoneUnit) : p.PassKept (p.put z u) z :=
  ⟨rfl, rfl, rfl, fun y hy => by rw [Plant.put_unit_ne p u (Ne.symm hy)]⟩

theorem Plant.Kept.pass {p q : Plant} (h : p.Kept q) (z : Zone) : p.PassKept q z :=
  ⟨h.work, h.records, h.frontEnd, fun y _ => (h.units y).pass⟩

/-- The aggregate replaced at the end of a pass, with PROBE_SHORTAGE (R49, R53). -/
theorem Plant.passAggregate_eq (p : Plant) (z : Zone) :
    (p.pass z fun s => { s with progress := none }).replaceAggregate z =
      (p.put z
        { p.unit z with
          pass := { (p.unit z).pass with progress := none }, aggregate := p.formAggregate z }).raiseIf
        ((!(p.unit z).aggregate.blind && (p.formAggregate z).blind) && decide ((p.unit z).ctx.state ≠ .idle))
        (.zone z .probeShortage) := by
  have hf : (p.pass z fun s => { s with progress := none }).formAggregate z = p.formAggregate z := rfl
  have hc : ((p.ctx z).state != .idle) = decide ((p.unit z).ctx.state ≠ .idle) := by
    cases h : (p.ctx z).state <;> simp [h, ← Plant.ctx_eq]
  unfold Plant.replaceAggregate Plant.raiseIf
  dsimp only
  rw [hf]
  unfold Plant.pass
  simp only [Plant.zone_eq_put, Plant.put_put, Plant.put_unit_self, Plant.put_ctx_self]
  rw [← hc, Plant.ctx_eq]

theorem Plant.PassKept.raiseIf (p : Plant) (z : Zone) (b : Bool) (a : Alert) : p.PassKept (p.raiseIf b a) z := by
  unfold Plant.raiseIf; split <;> exact ⟨rfl, rfl, rfl, fun _ _ => rfl⟩

/-- What the end of a pass leaves (R15, R49, R53). -/
theorem Plant.endPass_ended (p : Plant) (z : Zone) : p.PassEnded (p.endPass z) z := by
  unfold Plant.PassEnded
  intro u new completed
  have hc : (completed.ctx z).state = u.ctx.state := by simp [completed, Plant.ctx_eq, u]
  have e : p.endPass z = if (completed.ctx z).state = .starting then completed.evaluateStart z else completed.evaluate z := by
    unfold Plant.endPass
    rw [p.passAggregate_eq z]
  rw [e, hc]
  refine ⟨fun h => ?_, fun h => ?_⟩
  · rw [if_pos h]; exact completed.evaluateStart_judged z (hc.trans h)
  · rw [if_neg h]; exact completed.evaluate_evaluated z

theorem Plant.endPass_kept (p : Plant) (z : Zone) :
    p.PassKept (p.endPass z) z ∧ ((p.endPass z).unit z).pass = { (p.unit z).pass with progress := none } := by
  unfold Plant.endPass
  rw [p.passAggregate_eq z]
  dsimp only
  generalize hq : (p.put z _).raiseIf _ _ = q
  have k : p.PassKept q z := by rw [← hq]; exact (Plant.PassKept.put p z _).trans (.raiseIf _ z _ _)
  have hu : (q.unit z).pass = { (p.unit z).pass with progress := none } := by rw [← hq]; simp
  split
  · exact ⟨k.trans ((Plant.Kept.evaluateStart q z).pass z), ((Plant.Kept.evaluateStart q z).units z).pass.trans hu⟩
  · exact ⟨k.trans ((Plant.Kept.evaluate q z).pass z), ((Plant.Kept.evaluate q z).units z).pass.trans hu⟩

/-- What the start of a pass leaves (R14). -/
theorem Plant.startPass_started (p : Plant) (z : Zone) : p.PassStarted (p.startPass z) z := by
  have mem : ∀ i, i ∈ (List.finRange 64).filter (p.measurable z) ↔ p.Scans z i := fun i => by
    rw [List.mem_filter, p.measurable_iff]; exact and_iff_right (List.mem_finRange i)
  have rising : ((List.finRange 64).filter (p.measurable z)).Pairwise fun i j => i < j :=
    List.Pairwise.filter _ (List.pairwise_lt_finRange 64)
  refine ⟨fun snapshot hn hp hm => ?_, fun h => ?_⟩
  · have e : (List.finRange 64).filter (p.measurable z) = snapshot :=
      rising.eq_of_mem_iff (r := fun i j => i < j) hp fun i => (mem i).trans (hm i).symm
    unfold Plant.startPass
    dsimp only
    rw [e, if_neg (by simpa using hn)]
    rfl
  · have e : (List.finRange 64).filter (p.measurable z) = [] :=
      List.eq_nil_iff_forall_not_mem.2 fun i hi => h i ((mem i).1 hi)
    unfold Plant.startPass
    dsimp only
    rw [e]
    exact p.endPass_ended z

/-- What the completion of a pass leaves (R13, R15). -/
theorem Plant.completePass_completed (p : Plant) (z : Zone) : p.PassCompleted (p.completePass z) z := by
  refine ⟨p.endPass z, p.endPass_ended z, fun h => ?_, fun h => ?_⟩
  · unfold Plant.completePass
    dsimp only
    rw [if_neg (by rw [h]; exact Bool.false_ne_true)]
  · unfold Plant.completePass
    dsimp only
    rw [if_pos h]
    exact Plant.startPass_started _ z

/-! ### The arbiter -/

/-- The pass of a zone is in progress with no entry left that takes part. -/
def Plant.Spent (p : Plant) (z : Zone) : Prop :=
  ∃ g, (p.unit z).pass.progress = some g ∧ ∀ j ∈ g.rest, ¬p.Scans z j

theorem Plant.PassKept.scans {p q : Plant} {z : Zone} (h : p.PassKept q z) (y : Zone) (i : Fin 64) :
    q.Scans y i ↔ p.Scans y i := by
  unfold Plant.Scans; rw [h.work, h.records]

theorem Plant.PassKept.spent {p q : Plant} {z y : Zone} (h : p.PassKept q z) (hy : y ≠ z) : q.Spent y ↔ p.Spent y := by
  unfold Plant.Spent
  rw [h.others y hy]
  simp only [h.scans]

theorem Plant.startPass_kept (p : Plant) (z : Zone) : p.PassKept (p.startPass z) z ∧ ¬(p.startPass z).Spent z := by
  unfold Plant.startPass
  dsimp only
  split
  · obtain ⟨h, h'⟩ := p.endPass_kept z
    exact ⟨h, fun ⟨g, hg, _⟩ => by rw [h'] at hg; cases hg⟩
  · rename_i hn
    obtain ⟨i, hi⟩ := List.exists_mem_of_ne_nil ((List.finRange 64).filter (p.measurable z)) fun e => hn (by rw [e]; rfl)
    have k := Plant.PassKept.put p z
      { p.unit z with
        pass :=
          { (p.unit z).pass with
            progress :=
              some ⟨(List.finRange 64).filter (p.measurable z), (List.finRange 64).filter (p.measurable z)⟩ } }
    refine ⟨k, ?_⟩
    rintro ⟨g, hg, h⟩
    unfold Plant.pass at hg h
    rw [Plant.zone_eq_put, Plant.put_unit_self] at hg
    cases hg
    exact h i hi ((k.scans z i).2 ((p.measurable_iff z i).1 (List.mem_filter.1 hi).2))

theorem Plant.completePass_kept (p : Plant) (z : Zone) :
    p.PassKept (p.completePass z) z ∧ ¬(p.completePass z).Spent z := by
  obtain ⟨h, h'⟩ := p.endPass_kept z
  unfold Plant.completePass
  dsimp only
  split
  · obtain ⟨k, k'⟩ := ((p.endPass z).pass z fun s => { s with due := false }).startPass_kept z
    exact ⟨(h.trans (.put _ z _)).trans k, k'⟩
  · exact ⟨h, fun ⟨g, hg, _⟩ => by rw [h'] at hg; cases hg⟩

/-- The position of a pass moves on (R15): to the next entry that is measurable, or to the completion of the pass. -/
theorem Plant.advancePass_moved (p : Plant) (z : Zone) (g : PassProgress) (hg : (p.unit z).pass.progress = some g) :
    (∀ skipped i more, g.rest.drop 1 = skipped ++ i :: more → (∀ j ∈ skipped, ¬p.Scans z j) → p.Scans z i →
      p.advancePass z =
        p.put z { p.unit z with pass := { (p.unit z).pass with progress := some ⟨g.snapshot, i :: more⟩ } }) ∧
    ((∀ j ∈ g.rest.drop 1, ¬p.Scans z j) → p.PassCompleted (p.advancePass z) z) := by
  generalize hq : (p.pass z fun s => { s with progress := s.progress.map fun g => { g with rest := g.rest.drop 1 } }) = q
  have hq' :
      q = p.put z
        { p.unit z with pass := { (p.unit z).pass with progress := some { g with rest := g.rest.drop 1 } } } := by
    rw [← hq]
    unfold Plant.pass
    rw [Plant.zone_eq_put]
    dsimp only
    rw [hg]
    rfl
  have hp : (q.unit z).pass.progress = some { g with rest := g.rest.drop 1 } := by rw [hq']; simp
  have k : p.PassKept q z := by rw [hq']; exact .put p z _
  have e : p.advancePass z = q.movePast z := by unfold Plant.advancePass; rw [hq]
  have mv : q.movePast z =
      (let rest := (g.rest.drop 1).dropWhile fun i => !q.measurable z i
    if rest.isEmpty then q.completePass z
    else q.pass z fun s => { s with progress := some { g with rest := rest } }) := by
    unfold Plant.movePast; rw [hp]
  rw [e, mv]
  refine ⟨fun skipped i more hd hs hi => ?_, fun h => ?_⟩
  · have : ((g.rest.drop 1).dropWhile fun i => !q.measurable z i) = i :: more := by
      rw [hd, List.dropWhile_append_of_pos, List.dropWhile_cons_of_neg]
      · rw [q.not_measurable_iff, k.scans]; simpa using hi
      · intro j hj; rw [q.not_measurable_iff, k.scans]; exact hs j hj
    rw [this]
    simp only [List.isEmpty_cons]
    unfold Plant.pass
    rw [Plant.zone_eq_put, hq', Plant.put_put, Plant.put_unit_self]
    rfl
  · have : ((g.rest.drop 1).dropWhile fun i => !q.measurable z i) = [] := by
      rw [List.dropWhile_eq_nil_iff]
      intro j hj; rw [q.not_measurable_iff, k.scans]; exact h j hj
    rw [this]
    simp only [List.isEmpty_nil, if_true]
    have c := q.completePass_completed z
    unfold Plant.PassCompleted at c ⊢
    obtain ⟨r, hr, h1⟩ := c
    refine ⟨r, ?_, h1⟩
    unfold Plant.PassEnded at hr ⊢
    have e2 : q.formAggregate z = p.formAggregate z := by rw [hq']; rfl
    have e3 : q.unit z =
        { p.unit z with pass := { (p.unit z).pass with progress := some { g with rest := g.rest.drop 1 } } } := by
      rw [hq', Plant.put_unit_self]
    have e4 : ∀ u, q.put z u = p.put z u := fun u => by rw [hq', Plant.put_put]
    simp only [e2, e3, e4] at hr
    exact hr

theorem Plant.choose_requests (p : Plant) {r : Requester} {a : Arbiter} (h : p.choose = some (r, a)) :
    p.requests r = true := by
  have key : ∀ {xs : List Requester} {x : Requester}, (xs.filter p.requests).head? = some x → p.requests x = true :=
    fun {xs} {x} e => (List.mem_filter.1 (List.mem_of_mem_head? e)).2
  have other : ∀ {xs : List Requester} {t : Requester → Bool} {x : Requester},
      ((xs.filter p.requests).filter t).head? = some x → p.requests x = true :=
    fun {xs} {t} {x} e => (List.mem_filter.1 (List.mem_filter.1 (List.mem_of_mem_head? e)).1).2
  unfold Plant.choose at h
  dsimp only at h
  split at h
  · obtain ⟨x, hx, e⟩ := Option.map_eq_some_iff.1 h
    cases e
    exact key hx
  · have rest : ∀ {b : Requester → Arbiter}, ((p.arbiter.pointer.after.filter p.requests).filter
        (· != .zone p.work.config.scan.favoured)).head?.map (fun r => (r, b r)) = some (r, a) → p.requests r = true := by
      intro b e
      obtain ⟨x, hx, e⟩ := Option.map_eq_some_iff.1 e
      cases e
      exact other hx
    by_cases hz : p.requests (.zone p.work.config.scan.favoured) = true
    · simp only [hz, if_true, Option.isSome_some] at h
      split at h
      · cases h; exact hz
      · split at h
        · exact rest h
        · cases h; exact hz
    · simp only [hz, if_false, Option.isSome_none, Bool.false_eq_true] at h
      split at h
      · exact rest h
      · split at h
        · exact rest h
        · cases h

/-- `Plant.Spent` as a test. -/
def Plant.spent (p : Plant) (z : Zone) : Bool :=
  match (p.unit z).pass.progress with
  | none => false
  | some g => g.rest.all fun i => !p.measurable z i

theorem Plant.spent_iff (p : Plant) (z : Zone) : p.spent z = true ↔ p.Spent z := by
  unfold Plant.spent Plant.Spent
  cases (p.unit z).pass.progress with
  | none => simp
  | some g => simp only [List.all_eq_true, p.not_measurable_iff, Option.some.injEq, exists_eq_left']

/-- The zones whose pass is spent. -/
def Plant.spents (p : Plant) : Nat := (everyZone.filter p.spent).length

theorem Plant.PassKept.spents {p q : Plant} {z : Zone} (h : p.PassKept q z) (hp : p.Spent z) (hq : ¬q.Spent z) :
    q.spents < p.spents := by
  have n : ∀ y, y ≠ z → q.spent y = p.spent y := fun y hy => by
    rw [Bool.eq_iff_iff, p.spent_iff, q.spent_iff]; exact h.spent hy
  have hp' := (p.spent_iff z).2 hp
  have hq' : q.spent z = false := by rw [← Bool.not_eq_true, q.spent_iff]; exact hq
  have a := n .a
  have b := n .b
  have c := n .c
  have d := n .d
  unfold Plant.spents everyZone
  revert hp' hq' a b c d
  simp only [List.filter_cons, List.filter_nil]
  cases z <;> cases p.spent .a <;> cases p.spent .b <;> cases p.spent .c <;> cases p.spent .d <;> simp_all

/-- What the arbiter leaves (R16 to R18). -/
theorem Plant.grant_granted (fuel : Nat) (p : Plant) (h : p.spents < fuel) : p.Granted (p.grant fuel) := by
  induction fuel generalizing p with
  | zero => omega
  | succ n ih =>
    unfold Plant.grant
    split
    next hf => exact .busy hf
    next hf =>
      have hf : p.frontEnd.inFlight = none := by simpa using hf
      split
      next hc => exact .free hf hc
      next arbiter hc =>
        have hr := p.choose_requests hc
        unfold Plant.requests at hr
        dsimp only at hr
        split
        next i hi =>
          obtain ⟨m, mux, e, b⟩ := ({ p with arbiter := arbiter, spot := .measuring i } : Plant).startMeasurement_begins .spot i
          rw [e]
          exact .spot hf hc hi ⟨b.1, b.2, b.3, b.4, b.5, b.6, b.7, b.8, b.9⟩
        next hn =>
          split at hr
          next i hi => exact absurd hi (hn i)
          next => cases hr
      next z arbiter hc =>
        have hr : (p.unit z).pass.progress.isSome = true := p.choose_requests hc
        split
        next hg => rw [hg] at hr; cases hr
        next g hg =>
          split
          next hd =>
            have hd' : ∀ j ∈ g.rest, ¬p.Scans z j := fun j hj => by
              rw [← p.not_measurable_iff]; exact List.dropWhile_eq_nil_iff.1 hd j hj
            obtain ⟨k, k'⟩ := p.completePass_kept z
            refine .passed hf hc hg hd' (p.completePass_completed z) (ih _ ?_)
            have := k.spents ⟨g, hg, hd'⟩ k'
            omega
          next i more hd =>
            have hs := List.takeWhile_append_dropWhile (p := fun i => !p.measurable z i) (l := g.rest)
            rw [hd] at hs
            have hi : p.Scans z i := by
              have := List.head?_dropWhile_not (fun i => !p.measurable z i) g.rest
              rw [hd] at this
              rw [← p.measurable_iff]; simpa using this
            have hk : ∀ j ∈ g.rest.takeWhile fun i => !p.measurable z i, ¬p.Scans z j := fun j hj => by
              rw [← p.not_measurable_iff]; exact List.mem_takeWhile_imp (p := fun i => !p.measurable z i) hj
            obtain ⟨m, mux, e, b⟩ :=
              (({ p with arbiter := arbiter } : Plant).pass z fun s =>
                { s with progress := some { g with rest := i :: more } }).startMeasurement_begins (.zone z) i
            rw [e]
            have hp : (p.unit z).pass.progress =
                some ⟨g.snapshot, (g.rest.takeWhile fun i => !p.measurable z i) ++ i :: more⟩ := by rw [hg, hs]
            exact .zone hf hc hp hk hi ⟨b.1, b.2, b.3, b.4, b.5, b.6, b.7, b.8, b.9⟩

/-- What the arbiter leaves at the end of an event (R16). -/
theorem Plant.arbitrate_granted (p : Plant) : p.Granted p.arbitrate := by
  refine p.grant_granted 9 ?_
  have : p.spents ≤ everyZone.length := List.length_filter_le _ _
  simp only [everyZone, List.length_cons, List.length_nil] at this
  omega

end Sys2Proof.Machine
end

