-- ==== Sys2Proof/Laws/Layout.lean ====
section
/-! SUPPORT. The bytes that a reply's content is given are the ones that its layout spells, field by field. -/

namespace Sys2Proof.Machine

/-! ### Fields -/

theorem Layout.octet_eq (n : Nat) : Layout.octet n = num8 n := rfl

theorem Layout.word_eq (n : Nat) : Layout.word n = b16 n := by
  have h : BitVec.ofNat 8 (n % 256) = BitVec.ofNat 8 n := BitVec.eq_of_toNat_eq (by simp)
  simp [Layout.word, b16, b8, h]

theorem Layout.signed_eq (x : Int) : Layout.signed x = bs16 x := Layout.word_eq _

theorem Layout.first_eq (b : Bool) : Layout.first b = mark b := by cases b <;> rfl

theorem Layout.optional_eq {α : Type} (n : Nat) {f g : α → List Byte} (h : ∀ x, f x = g x) (x : Option α) :
    Layout.optional n f x = Machine.optional n g x := by
  cases x
  · rfl
  · exact congrArg _ (h _)

theorem Layout.index_eq {n : Nat} (x : Option (Fin n)) :
    Layout.optional 1 (fun i => Layout.octet i.val) x = Machine.optional 1 index x :=
  Layout.optional_eq 1 (fun _ => rfl) x

theorem Layout.bits_eq (bs : List Bool) : Layout.bits bs = setNumber bs := by
  have shift (bs : List Bool) : ∀ k : Nat,
      ((bs.zipIdx k).map fun m => if m.1 then 2 ^ m.2 else 0).sum = 2 ^ k * setNumber bs := by
    induction bs with
    | nil => intro k; rfl
    | cons b bs ih =>
      intro k
      rw [List.zipIdx_cons, List.map_cons, List.sum_cons, ih]
      cases b <;> simp [setNumber, Nat.pow_succ, Nat.mul_add, Nat.mul_assoc, Nat.mul_comm, Nat.mul_left_comm]
  simpa [Layout.bits] using shift bs 0

theorem Layout.members_eq (bs : List Bool) : Layout.members bs = set8 bs := by
  rw [Layout.members, Layout.bits_eq]
  rfl

theorem Layout.flatten_eq {α : Type} {f g : α → List Byte} (h : ∀ x, f x = g x) (xs : List α) :
    (xs.map f).flatten = xs.flatMap g := by
  rw [← List.flatMap_def, funext h]

theorem Layout.counted_eq {α : Type} {f g : α → List Byte} (h : ∀ x, f x = g x) (xs : List α) :
    Layout.counted f xs = listed g xs := by
  rw [Layout.counted, Layout.flatten_eq h]
  rfl

/-! ### Enumerations -/

theorem Layout.zone_eq (z : Zone) : Layout.zone z = Machine.Zone.bytes z := by cases z <;> rfl

theorem Layout.phase_eq (p : Phase) : Layout.phase p = Machine.code p.code := by cases p <;> rfl

theorem Layout.state_eq (s : ZoneState) : Layout.state s = Machine.code s.code := by
  rcases s with _ | _ | (_ | _ | _ | _ | _) | _ | _ | _ | _ <;> rfl

theorem Layout.reason_eq (r : ExitReason) : Layout.reason r = Machine.code r.code := by cases r <;> rfl

theorem Layout.alert_eq (a : Alert) : Layout.alert a = [b8 a.scopeCode, b8 a.kindCode] := by
  rcases a with ⟨z, k⟩ | k
  · cases z <;> cases k <;> rfl
  · cases k <;> rfl

/-! ### Items -/

theorem Layout.step_eq (x : StepRecord) : Layout.step x = x.bytes := by
  have h : Layout.place [.used, .notUsed] x.sensor = Machine.code x.sensor.code := by cases x.sensor <;> rfl
  simp only [Layout.step, StepRecord.bytes, List.flatten_cons, List.flatten_nil, List.append_nil, List.append_assoc,
    Layout.first_eq, Layout.signed_eq, Layout.word_eq, Layout.octet_eq, h]

theorem Layout.finding_eq (f : Finding) : Layout.finding f = f.bytes := by
  have h : Layout.place [.noEntry, .blankRecord, .noMarker, .stepOutside] f.reason = Machine.code f.reason.code := by
    cases f.reason <;> rfl
  simp only [Layout.finding, Finding.bytes, List.flatten_cons, List.flatten_nil, List.append_nil, List.append_assoc,
    Layout.phase_eq, h, Layout.index_eq]

theorem Layout.failure_eq (f : StartFailure) : Layout.failure f = f.bytes := by
  have h : Layout.place [.host, .line, .timer, .group] f.source = Machine.code f.source.code := by cases f.source <;> rfl
  have k : Layout.place [.fieldDisabled, .badSchedule, .timeout] f.cause = Machine.code f.cause.code := by
    cases f.cause <;> rfl
  simp only [Layout.failure, StartFailure.bytes, List.flatten_cons, List.flatten_nil, List.append_nil, List.append_assoc, h,
    k, Layout.optional_eq 4 Layout.finding_eq, Layout.optional_eq 1 fun u : Unmet => Layout.members_eq _]

theorem Layout.cmc_eq (c : Cmc) : Layout.cmc c = c.bytes := by
  simp only [Layout.cmc, Cmc.bytes, Layout.signed_eq, Layout.members_eq]

theorem Layout.entry_eq (e : RunEntry) : Layout.entry e = e.bytes := by
  have h :
      Layout.place [.started, .stepLeft, .held, .resumed, .safeEntered, .safeLeft, .aborted, .done, .restarted] e.kind =
        Machine.code e.kind.code := by
    cases e.kind <;> rfl
  simp only [Layout.entry, RunEntry.bytes, List.flatten_cons, List.flatten_nil, List.append_nil, List.append_assoc, h,
    Layout.word_eq, Layout.octet_eq, Layout.optional_eq 1 Layout.reason_eq, Layout.optional_eq 3 Layout.cmc_eq,
    Layout.optional_eq 2 Layout.signed_eq]

theorem Layout.kind_eq (k : ProbeKind) : Layout.place [.moisture, .woodTemp] k = Machine.code k.code := by cases k <;> rfl

theorem Layout.probe_eq (c : ProbeConfig) : Layout.probe c = c.bytes := by
  simp only [Layout.probe, ProbeConfig.bytes, List.flatten_cons, List.flatten_nil, List.append_nil, List.append_assoc,
    Layout.optional_eq 1 Layout.zone_eq, Layout.kind_eq, Layout.index_eq]
  rfl

theorem Layout.record_eq (r : ProbeRecord) : Layout.record r = r.bytes := by
  have h : Layout.place [.unseen, .valid, .held, .short, .open, .failed, .excluded, .unreachable] r.state =
      Machine.code r.state.code := by
    cases r.state <;> rfl
  simp only [Layout.record, ProbeRecord.bytes, List.flatten_cons, List.flatten_nil, List.append_nil, List.append_assoc, h,
    Layout.optional_eq 2 Layout.signed_eq, Layout.optional_eq 2 Layout.word_eq, Layout.flags, Layout.members_eq,
    Layout.octet_eq, MoistureFlags.bytes]

theorem Layout.spot_eq (r : SpotReading) : Layout.spot r = r.bytes := by
  have h : Layout.place [.inRange, .short, .open] r.classification = Machine.code r.classification.code := by
    cases r.classification <;> rfl
  have v (x : Int × MoistureFlags) : Layout.signed x.1 ++ Layout.flags x.2 = bs16 x.1 ++ x.2.bytes := by
    rw [Layout.signed_eq, Layout.flags, Layout.members_eq]
    rfl
  have w (x : Int × MoistureFlags) : Layout.signed x.1 = bs16 x.1 := Layout.signed_eq x.1
  simp only [Layout.spot, SpotReading.bytes, List.flatten_cons, List.flatten_nil, List.append_nil, List.append_assoc, h,
    Layout.kind_eq, Layout.signed_eq r.raw]
  cases r.kind
  · rw [if_pos rfl, Layout.optional_eq 3 v]
    rfl
  · rw [if_neg (by simp), Layout.optional_eq 2 w]
    rfl

theorem Layout.status_eq (r : StatusReport) : Layout.status r = r.bytes := by
  have h : Layout.place [.locked, .open, .barred] r.gate = Machine.code r.gate.code := by cases r.gate <;> rfl
  have k : Layout.place [.powerOn, .pin, .commanded] r.cause.lastKind = Machine.code r.cause.lastKind.code := by
    cases r.cause.lastKind <;> rfl
  have v (z : Zone) :
      Layout.state (r.zones.get z).1 ++ Layout.optional 1 Layout.phase (r.zones.get z).2 =
        Machine.code (r.zones.get z).1.code ++ Machine.optional 1 (fun p : Phase => Machine.code p.code) (r.zones.get z).2 := by
    rw [Layout.state_eq, Layout.optional_eq 1 Layout.phase_eq]
  simp only [Layout.status, StatusReport.bytes, List.flatten_cons, List.flatten_nil, List.append_nil, List.append_assoc, h, k,
    Layout.first_eq, Layout.word_eq, Layout.flatten_eq v, Layout.counted_eq Layout.alert_eq]
  rfl

theorem Layout.kilnItem_eq (c : KilnConfig) : Layout.kilnItem c = c.bytes := by
  have h : Layout.place [.open, .closed] c.safeVent = Machine.code c.safeVent.code := by cases c.safeVent <;> rfl
  have k : Layout.place [.run, .stop] c.safeFan = Machine.code c.safeFan.code := by cases c.safeFan <;> rfl
  simp only [Layout.kilnItem, KilnConfig.bytes, List.flatten_cons, List.flatten_nil, List.append_nil, List.append_assoc, h, k,
    Layout.signed_eq, Layout.octet_eq]

theorem Layout.zoneItem_eq (c : ZoneConfig) : Layout.zoneItem c = c.bytes := by
  simp only [Layout.zoneItem, ZoneConfig.bytes, List.flatten_cons, List.flatten_nil, List.append_nil, List.append_assoc,
    Layout.signed_eq, Layout.octet_eq, Layout.word_eq, Layout.members_eq, Layout.first_eq]

theorem Layout.windowItem_eq (c : WindowConfig) : Layout.windowItem c = c.bytes := by
  simp only [Layout.windowItem, WindowConfig.bytes, List.flatten_cons, List.flatten_nil, List.append_nil, List.append_assoc,
    Layout.octet_eq, Layout.word_eq, Layout.first_eq]

theorem Layout.lineItem_eq (c : LineConfig) : Layout.lineItem c = c.bytes := by
  have h : Layout.place [.none, .door, .fanProof, .startButton, .holdIn, .alarmOut, .generalIn, .generalOut] c.role =
      Machine.code c.role.code := by
    cases c.role <;> rfl
  have k : Layout.place [.activeHigh, .activeLow] c.polarity = Machine.code c.polarity.code := by cases c.polarity <;> rfl
  simp only [Layout.lineItem, LineConfig.bytes, List.flatten_cons, List.flatten_nil, List.append_nil, List.append_assoc, h, k,
    Layout.zone_eq, Layout.octet_eq, Layout.first_eq]

theorem Layout.line_eq (r : LineReading) : Layout.line r = r.bytes := by
  simp only [Layout.line, LineReading.bytes, List.flatten_cons, List.flatten_nil, List.append_nil, List.append_assoc,
    Layout.first_eq]

theorem Layout.override_eq (e : OverrideEntry) : Layout.place [.auto, .on, .off] e = Machine.code e.code := by cases e <;> rfl

theorem Layout.output_eq (pin : Bool) (o : AutoOutput) (e : OverrideEntry) :
    Layout.output pin o e = outputBytes pin o e := by
  simp only [Layout.output, outputBytes, List.flatten_cons, List.flatten_nil, List.append_nil, List.append_assoc,
    Layout.first_eq, Layout.word_eq, Layout.override_eq]

theorem Layout.sensor_eq (r : SensorRecord) : Layout.sensor r = r.bytes := by
  have h : Layout.place [.unsampled, .good, .faulty] r.status = Machine.code r.status.code := by cases r.status <;> rfl
  simp only [Layout.sensor, SensorRecord.bytes, List.flatten_cons, List.flatten_nil, List.append_nil, List.append_assoc, h,
    Layout.octet_eq, Layout.optional_eq 2 Layout.signed_eq]

theorem Layout.causes_eq (c : SafeCauses) : Layout.causes c = c.bytes := Layout.members_eq _

theorem Layout.aggregate_eq (a : Aggregate) : Layout.aggregate a = a.bytes := by
  simp only [Layout.aggregate, Aggregate.bytes, List.flatten_cons, List.flatten_nil, List.append_nil, List.append_assoc,
    Layout.octet_eq a.count, Layout.optional_eq 3 Layout.cmc_eq, Layout.optional_eq 2 Layout.signed_eq, Layout.first_eq,
    Layout.counted_eq (f := fun i : Fin 64 => Layout.octet i) (g := index) fun _ => rfl]

theorem Layout.context_eq (r : ZoneReading) :
    Layout.context r =
      Machine.code r.state.code ++ Machine.optional 1 (fun p : Phase => Machine.code p.code) r.underlying ++
        set8 [r.holds.host, r.holds.line] ++ mark r.holdPending ++ Machine.optional 1 index r.stepIndex ++ b16 r.stepClock ++
        b16 r.runClock ++ Machine.optional 1 (fun e => Machine.code e.code) r.eligible ++ mark r.waiting ++
        mark r.detached ++ Machine.optional 1 num8 r.startTimeout ++
        Machine.optional 9 StartFailure.bytes r.lastFailure ++ mark r.grouped ++ b16 r.waitCount := by
  simp only [Layout.context, List.flatten_cons, List.flatten_nil, List.append_nil, List.append_assoc, Layout.state_eq,
    Layout.optional_eq 1 Layout.phase_eq, Layout.members_eq, Layout.first_eq, Layout.index_eq, Layout.word_eq,
    Layout.optional_eq 1 Layout.reason_eq, Layout.optional_eq 1 Layout.octet_eq, Layout.optional_eq 9 Layout.failure_eq]

theorem Layout.climate_eq (r : ZoneReading) :
    Layout.climate r =
      Machine.optional 2 bs16 r.dbSetpoint ++ Machine.optional 2 bs16 r.wbSetpoint ++ bs16 r.reportedDb ++
        bs16 r.reportedWb ++ num8 r.rampRate ++ mark r.rampInFlight ++ r.db.bytes ++ r.wb.bytes := by
  simp only [Layout.climate, List.flatten_cons, List.flatten_nil, List.append_nil, List.append_assoc, Layout.first_eq,
    Layout.octet_eq, Layout.optional_eq 2 Layout.signed_eq, Layout.signed_eq, Layout.sensor_eq]

theorem Layout.outputs_eq (r : ZoneReading) :
    Layout.outputs r =
      outputBytes r.pins.heat r.heat r.overrides.heat ++ outputBytes r.pins.spray r.spray r.overrides.spray ++
        outputBytes r.pins.vent r.vent r.overrides.vent ++ Machine.code r.fan.machine.code ++
        Machine.code r.fan.direction.code ++ b16 r.fan.reversalCount ++ b16 r.fan.interval ++ mark r.pins.fanRun ++
        Machine.code r.overrides.fanRun.code ++ Machine.code (if r.pins.fanDir then 1 else 0) ++
        Machine.code r.overrides.fanDir.code ++ mark r.proofRunning ++ mark r.fieldEnabled ++
        Machine.optional 1 num8 r.lapse := by
  have h : Layout.place [.stopped, .runFwd, .dwellToRev, .runRev, .dwellToFwd] r.fan.machine =
      Machine.code r.fan.machine.code := by
    cases r.fan.machine <;> rfl
  have k : Layout.place [.forward, .reverse] r.fan.direction = Machine.code r.fan.direction.code := by
    cases r.fan.direction <;> rfl
  have d : Layout.place [false, true] r.pins.fanDir = Machine.code (if r.pins.fanDir then 1 else 0) := by
    cases r.pins.fanDir <;> rfl
  simp only [Layout.outputs, List.flatten_cons, List.flatten_nil, List.append_nil, List.append_assoc, h, k, d,
    Layout.first_eq, Layout.word_eq, Layout.optional_eq 1 Layout.octet_eq, Layout.output_eq, Layout.override_eq]

theorem Layout.interlock_eq (r : ZoneReading) :
    Layout.interlock r =
      r.causes.bytes ++ mark r.conditions.door ++ mark r.conditions.sensor ++ mark r.conditions.overtemp ++
        mark r.conditions.proofOverdue := by
  simp only [Layout.interlock, List.flatten_cons, List.flatten_nil, List.append_nil, List.append_assoc, Layout.first_eq,
    Layout.causes_eq]

theorem Layout.zoneReading_eq (r : ZoneReading) : Layout.zoneReading r = r.bytes := by
  unfold Layout.zoneReading ZoneReading.bytes
  rw [Layout.context_eq, Layout.optional_eq 15 Layout.step_eq, Layout.aggregate_eq, Layout.climate_eq, Layout.outputs_eq,
    Layout.interlock_eq]
  simp only [List.flatten_cons, List.flatten_nil, List.append_nil, List.append_assoc]

/-! ### Contents -/

/-- The bytes of every content are the ones that its layout spells. -/
theorem Layout.content_eq (c : Content) : Layout.content c = c.bytes := by
  cases c with
  | none => rfl
  | identity s => rfl
  | status r => exact Layout.status_eq r
  | alertsLeft n => rfl
  | kiln c => exact Layout.kilnItem_eq c
  | zoneItem c => exact Layout.zoneItem_eq c
  | group c => simp only [Layout.content, Content.bytes, Layout.first_eq, Layout.word_eq]
  | scan c =>
    have h : Layout.place [.equal, .favor] c.mode = Machine.code c.mode.code := by cases c.mode <;> rfl
    simp only [Layout.content, Content.bytes, List.flatten_cons, List.flatten_nil, List.append_nil, List.append_assoc, h,
      Layout.zone_eq, Layout.first_eq]
  | window c => exact Layout.windowItem_eq c
  | default c => simp only [Layout.content, Content.bytes, Layout.word_eq, Layout.octet_eq]
  | line c => exact Layout.lineItem_eq c
  | probe c r =>
    cases r <;> simp only [Layout.content, Content.bytes, Layout.probe_eq, Layout.record_eq, List.append_assoc,
      List.singleton_append]
  | spotPending i => rfl
  | spotReading r => exact Layout.spot_eq r
  | species g =>
    simp only [Layout.content, Content.bytes, Layout.word_eq, Layout.flatten_eq (f := Layout.word) Layout.word_eq]
  | recordWritten i => rfl
  | recordRead i r =>
    cases r <;> simp only [Layout.content, Content.bytes, recordBytes, Layout.step_eq, List.append_assoc,
      List.singleton_append] <;> rfl
  | entries e =>
    simp only [Layout.content, Content.bytes, PhaseEntries.bytes, Phase.order,
      Layout.flatten_eq (Layout.optional_eq 1 (f := fun i : Fin 128 => Layout.octet i) (g := index) fun _ => rfl)]
    rfl
  | finding f => exact Layout.finding_eq f
  | causes c => exact Layout.causes_eq c
  | delayLeft m => exact Layout.optional_eq 2 Layout.word_eq m
  | lapseLeft m => exact Layout.optional_eq 1 (fun _ => rfl) m
  | latches l => simp only [Layout.content, Content.bytes, Layout.bits_eq, Layout.word_eq]
  | lines l => exact Layout.flatten_eq Layout.line_eq _
  | zone r => exact Layout.zoneReading_eq r
  | runRecord dropped length page =>
    simp only [Layout.content, Content.bytes, List.flatten_cons, List.flatten_nil, List.append_nil, List.append_assoc,
      Layout.word_eq, Layout.octet_eq, Layout.flatten_eq Layout.entry_eq]

end Sys2Proof.Machine
end

