-- ==== Sys2Proof/Laws/Link.lean ====
section
/-! SUPPORT. What the taking of a request can do, said once: a request that the link is ready for reaches its owner, and the
state it leaves is the answered one. -/

namespace Sys2Proof.Machine

theorem RequestKind.letters_injective {a b : RequestKind} (h : a.letters = b.letters) : a = b := by
  cases a <;> cases b <;> first | rfl | exact absurd h (by decide)

@[simp] theorem RequestKind.letters_beq (a b : RequestKind) : (a.letters == b.letters) = decide (a = b) := by
  by_cases h : a = b
  · subst h; simp
  · have : a.letters ≠ b.letters := fun e => h (RequestKind.letters_injective e)
    simp [h, this]

@[simp] theorem kindOf_letters (k : RequestKind) : kindOf k.letters = some k := by cases k <;> decide

/-- A complete good frame of a part that can take it is handed on with the receiver in HUNT. -/
theorem State.complete_ready {s : State} (hr : s.mode = .running) (ht : s.link.txen = false)
    (hu : s.link.unanswered = none) (f : State → State) :
    s.complete f = f (s.withLink fun l => { l with receiver := .hunt }) := by
  simp [State.complete, hr, ht, hu]

/-- A noted answer on the hunting state is the answered state. -/
theorem State.note_hunting (s : State) (kind : RequestKind) (env : Envelope) (p : Plant) (a : Answer) :
    State.note ({ s.withLink (fun l => { l with receiver := .hunt }) with plant := p }, a) env kind.letters =
      s.answered kind env p a := by
  simp [State.note, State.answered, State.withLink]

/-- A request that a block below the link carries out, when the link is ready for it: the whole of what it can do. -/
theorem State.take_ask {s : State} {kind : RequestKind} (h : s.Ready kind) (env : Envelope) (f : Plant → Performance) :
    s.take env kind (fun t => t.ask f) =
      match f s.plant with
      | .answered a => s.answered kind env s.plant a
      | .performed p a => s.answered kind env (settle s.plant p) a := by
  have hg : (kind.gated && s.link.gate != .open) = false := by
    cases hk : kind.gated
    · rfl
    · simp [h.gate hk]
  unfold State.take
  rw [State.complete_ready h.running h.silent h.free]
  unfold State.perform
  have hl : (s.withLink fun l => { l with receiver := .hunt }).link.gate = s.link.gate := rfl
  rw [hl, hg]
  simp only [Bool.false_eq_true, if_false]
  unfold State.ask
  have hp : (s.withLink fun l => { l with receiver := .hunt }).plant = s.plant := rfl
  rw [hp]
  cases f s.plant with
  | answered a => exact State.note_hunting s kind env s.plant a
  | performed p a => exact State.note_hunting s kind env (settle s.plant p) a

/-- A request that the link owner carries out, when the link is ready for it. -/
theorem State.take_ready {s : State} {kind : RequestKind} (h : s.Ready kind) (env : Envelope)
    (f : State → State × Answer) :
    s.take env kind f = State.note (f (s.withLink fun l => { l with receiver := .hunt })) env kind.letters := by
  have hg : (kind.gated && s.link.gate != .open) = false := by
    cases hk : kind.gated
    · rfl
    · simp [h.gate hk]
  unfold State.take
  rw [State.complete_ready h.running h.silent h.free]
  unfold State.perform
  have hl : (s.withLink fun l => { l with receiver := .hunt }).link.gate = s.link.gate := rfl
  rw [hl, hg]
  rfl

end Sys2Proof.Machine
end

