-- ==== Sys2Proof/Laws/PerInstr.lean ====
section
/-! SUPPORT. The statements made of every command, one lemma per constructor. -/

/-- The frame form of a command: it has a kind and a payload exactly where it has an envelope, so that every request can stand in a
frame and no event can (R168 to R175). -/
def Sys2Proof.Laws.Coverage.Statement (i : Sys2Proof.Instr) : Prop :=
  (Sys2Proof.encodeRequest i).isSome = i.envelope.isSome

namespace Sys2Proof.Laws.Coverage

theorem identify (m : Sys2Proof.Envelope) : Statement (.identify m) := rfl

theorem status (m : Sys2Proof.Envelope) : Statement (.status m) := rfl

theorem acknowledgeAlerts (m : Sys2Proof.Envelope) (n : List (Nat × Nat)) : Statement (.acknowledgeAlerts m n) := rfl

theorem unlock (m : Sys2Proof.Envelope) (n : List Sys2Proof.Byte) : Statement (.unlock m n) := rfl

theorem changeCode (m : Sys2Proof.Envelope) (n : List Sys2Proof.Byte) : Statement (.changeCode m n) := rfl

theorem rsReset (m : Sys2Proof.Envelope) : Statement (.rsReset m) := rfl

theorem clearCauses (m : Sys2Proof.Envelope) : Statement (.clearCauses m) := rfl

theorem cwKiln (m : Sys2Proof.Envelope) (n : Sys2Proof.RawKiln) : Statement (.cwKiln m n) := rfl

theorem cwZone (m : Sys2Proof.Envelope) (n : Nat) (p : Sys2Proof.RawZone) : Statement (.cwZone m n p) := rfl

theorem cwGroup (m : Sys2Proof.Envelope) (n : Nat) (p : Nat) : Statement (.cwGroup m n p) := rfl

theorem cwScan (m : Sys2Proof.Envelope) (n : Nat) (p : Nat) (q : Nat) : Statement (.cwScan m n p q) := rfl

theorem cwWindow (m : Sys2Proof.Envelope) (n : Nat) (p : Sys2Proof.RawWindow) : Statement (.cwWindow m n p) := rfl

theorem cwDefault (m : Sys2Proof.Envelope) (n : Nat) (p : Nat) : Statement (.cwDefault m n p) := rfl

theorem cwLine (m : Sys2Proof.Envelope) (n : Nat) (p : Sys2Proof.RawLine) : Statement (.cwLine m n p) := rfl

theorem configurationRead (m : Sys2Proof.Envelope) (n : Nat) (p : Nat) : Statement (.configurationRead m n p) := rfl

theorem probeWrite (m : Sys2Proof.Envelope) (n : Nat) (p : Sys2Proof.RawProbe) : Statement (.probeWrite m n p) := rfl

theorem probeRead (m : Sys2Proof.Envelope) (n : Nat) : Statement (.probeRead m n) := rfl

theorem excludeProbe (m : Sys2Proof.Envelope) (n : Nat) : Statement (.excludeProbe m n) := rfl

theorem reinstateProbe (m : Sys2Proof.Envelope) (n : Nat) : Statement (.reinstateProbe m n) := rfl

theorem spotRequest (m : Sys2Proof.Envelope) (n : Nat) : Statement (.spotRequest m n) := rfl

theorem spotResult (m : Sys2Proof.Envelope) : Statement (.spotResult m) := rfl

theorem speciesWrite (m : Sys2Proof.Envelope) (n : Nat) (p : Nat) (q : List Nat) : Statement (.speciesWrite m n p q) := rfl

theorem speciesRead (m : Sys2Proof.Envelope) (n : Nat) : Statement (.speciesRead m n) := rfl

theorem setCursor (m : Sys2Proof.Envelope) (n : Nat) : Statement (.setCursor m n) := rfl

theorem writeRecord (m : Sys2Proof.Envelope) (n : Option Sys2Proof.RawStep) : Statement (.writeRecord m n) := by cases n <;> rfl

theorem readRecord (m : Sys2Proof.Envelope) : Statement (.readRecord m) := rfl

theorem entryTableWrite (m : Sys2Proof.Envelope) (n : Nat) (p : Sys2Proof.RawEntries) : Statement (.entryTableWrite m n p) := rfl

theorem entryTableRead (m : Sys2Proof.Envelope) (n : Nat) : Statement (.entryTableRead m n) := rfl

theorem startZone (m : Sys2Proof.Envelope) (n : Nat) : Statement (.startZone m n) := rfl

theorem hold (m : Sys2Proof.Envelope) (n : Nat) : Statement (.hold m n) := rfl

theorem resume (m : Sys2Proof.Envelope) (n : Nat) : Statement (.resume m n) := rfl

theorem skip (m : Sys2Proof.Envelope) (n : Nat) : Statement (.skip m n) := rfl

theorem abort (m : Sys2Proof.Envelope) (n : Nat) : Statement (.abort m n) := rfl

theorem reloadStep (m : Sys2Proof.Envelope) (n : Nat) : Statement (.reloadStep m n) := rfl

theorem clearDone (m : Sys2Proof.Envelope) (n : Nat) : Statement (.clearDone m n) := rfl

theorem recover (m : Sys2Proof.Envelope) (n : Nat) : Statement (.recover m n) := rfl

theorem delayedStartMinutes (m : Sys2Proof.Envelope) (n : Nat) : Statement (.delayedStartMinutes m n) := rfl

theorem delayedStartCancel (m : Sys2Proof.Envelope) : Statement (.delayedStartCancel m) := rfl

theorem delayedStartQuery (m : Sys2Proof.Envelope) : Statement (.delayedStartQuery m) := rfl

theorem override (m : Sys2Proof.Envelope) (n : Nat) (p : Nat) (q : Nat) : Statement (.override m n p q) := rfl

theorem releaseOverride (m : Sys2Proof.Envelope) (n : Nat) (p : Nat) : Statement (.releaseOverride m n p) := rfl

theorem refreshOverrides (m : Sys2Proof.Envelope) : Statement (.refreshOverrides m) := rfl

theorem fieldEnable (m : Sys2Proof.Envelope) : Statement (.fieldEnable m) := rfl

theorem fieldDisable (m : Sys2Proof.Envelope) : Statement (.fieldDisable m) := rfl

theorem lineModify (m : Sys2Proof.Envelope) (n : Nat) (p : Nat) : Statement (.lineModify m n p) := rfl

theorem lineRead (m : Sys2Proof.Envelope) : Statement (.lineRead m) := rfl

theorem zoneRead (m : Sys2Proof.Envelope) (n : Nat) : Statement (.zoneRead m n) := rfl

theorem runRecordRead (m : Sys2Proof.Envelope) (n : Nat) (p : Nat) : Statement (.runRecordRead m n p) := rfl

theorem frameComplete (m : Sys2Proof.Byte) : Statement (.frameComplete m) := rfl

theorem badLengthByte (m : Sys2Proof.Byte) : Statement (.badLengthByte m) := rfl

theorem interByteTimeout : Statement .interByteTimeout := rfl

theorem stopBitError : Statement .stopBitError := rfl

theorem lineBreak : Statement .lineBreak := rfl

theorem replyStart : Statement .replyStart := rfl

theorem replyEnd : Statement .replyEnd := rfl

theorem powerOnReset : Statement .powerOnReset := rfl

theorem pinReset : Statement .pinReset := rfl

theorem commandedReset : Statement .commandedReset := rfl

theorem restart (m : BitVec 5) (n : BitVec 2) (p : BitVec 2) : Statement (.restart m n p) := rfl

theorem storeWriteComplete : Statement .storeWriteComplete := rfl

theorem passTimerExpiry (m : Sys2Proof.Zone) : Statement (.passTimerExpiry m) := rfl

theorem measurementCompletion (m : List Int) : Statement (.measurementCompletion m) := rfl

theorem minuteTimerExpiry (m : Sys2Proof.Zone) : Statement (.minuteTimerExpiry m) := rfl

theorem startTimeoutExpiry (m : Sys2Proof.Zone) : Statement (.startTimeoutExpiry m) := rfl

theorem delayedStartExpiry : Statement .delayedStartExpiry := rfl

theorem groupStartTimeoutExpiry : Statement .groupStartTimeoutExpiry := rfl

theorem climateSampleComplete (m : Sys2Proof.Zone) (n : Int) (p : Int) : Statement (.climateSampleComplete m n p) := rfl

theorem rampMinuteExpiry (m : Sys2Proof.Zone) : Statement (.rampMinuteExpiry m) := rfl

theorem pulsePeriodStart (m : Sys2Proof.Zone) : Statement (.pulsePeriodStart m) := rfl

theorem onTimeExpiry (m : Sys2Proof.Zone) (n : Sys2Proof.TimedOutput) : Statement (.onTimeExpiry m n) := rfl

theorem dwellExpiry (m : Sys2Proof.Zone) : Statement (.dwellExpiry m) := rfl

theorem proofDelayExpiry (m : Sys2Proof.Zone) : Statement (.proofDelayExpiry m) := rfl

theorem overrideLapseExpiry : Statement .overrideLapseExpiry := rfl

theorem pinChange (m : Fin 16) (n : Bool) : Statement (.pinChange m n) := rfl

theorem debounceTimerExpiry (m : Fin 16) : Statement (.debounceTimerExpiry m) := rfl

theorem byteArrival (m : Sys2Proof.Byte) : Statement (.byteArrival m) := rfl

theorem powerLoss : Statement .powerLoss := rfl

end Sys2Proof.Laws.Coverage
end

