-- ==== Sys2Proof/Laws/Settle.lean ====
section
/-! SUPPORT. The end of an event: what bringing the levels up to date can change, and that it changes nothing where nothing
that the levels follow from has changed. -/

namespace Sys2Proof.Machine

theorem Plant.eachZone_eq (p : Plant) (f : Plant → Zone → Plant) : p.eachZone f = f (f (f (f p .a) .b) .c) .d := rfl

/-- The level of a zone's pins follows from the zone alone, and not from its present pins. -/
theorem ZoneUnit.levels_pins (u : ZoneUnit) (pins : ZonePins) (field : Bool) (v : SafeVent) :
    ({ u with output := { u.output with pins := pins } } : ZoneUnit).levels field v = u.levels field v := rfl

theorem Plant.settlePins_unit (p : Plant) (z : Zone) :
    p.settlePins.unit z =
      { p.unit z with
        output := { (p.unit z).output with pins := (p.unit z).levels p.fieldEnabled p.kiln.safeVent } } := by
  cases z <;> rfl

@[simp] theorem Plant.settlePins_line (p : Plant) (i : Fin 16) : p.settlePins.lines.get i = p.settledLine i := by
  simp [Plant.settlePins]

theorem Plant.settledLine_idem (p : Plant) (i : Fin 16) : p.settlePins.settledLine i = p.settledLine i := by
  have h := p.settlePins_line i
  unfold Plant.settledLine at h ⊢
  have hc : p.settlePins.lineItems i = p.lineItems i := rfl
  simp only [hc]
  by_cases ho : (p.lineItems i).role.isOutput = true
  · simp only [ho, if_true] at h ⊢
    have hl : (p.settlePins.lines.get i).latch = (p.lines.get i).latch := by rw [h]
    have hd : p.settlePins.driveLevel i = p.driveLevel i := by
      unfold Plant.driveLevel
      rw [hl]; rfl
    rw [hd, h]
  · simp only [ho] at h ⊢
    simp only [Bool.false_eq_true, if_false] at h ⊢
    rw [h]

/-- A plant at its levels is unchanged by bringing them up to date, and only such a plant is. -/
theorem Plant.levelled_iff (p : Plant) : p.Levelled ↔ p.settlePins = p := by
  constructor
  · intro h
    have hl : p.settlePins.lines = p.lines := Table.ext_get fun i => by rw [Plant.settlePins_line, ← h.lines i]
    have hz : p.settlePins.zones = p.zones := PerZone.ext_get fun z => by
      have e := p.settlePins_unit z
      rw [← h.pins z] at e
      exact e
    have ha : p.settlePins.attn = p.attn := h.attn.symm
    calc p.settlePins = { p with attn := p.settlePins.attn, lines := p.settlePins.lines, zones := p.settlePins.zones } := rfl
      _ = p := by rw [hl, hz, ha]
  · intro h
    refine ⟨?_, fun z => ?_, fun i => ?_⟩
    · have := congrArg Plant.attn h; exact this.symm
    · have := p.settlePins_unit z
      rw [h] at this
      exact congrArg (fun u => u.output.pins) this
    · have := p.settlePins_line i
      rw [h] at this
      exact this

/-- Bringing the levels up to date leaves them up to date. -/
theorem Plant.settlePins_levelled (p : Plant) : p.settlePins.Levelled where
  attn := rfl
  pins z := by rw [Plant.settlePins_unit]; rfl
  lines i := by rw [Plant.settlePins_line, Plant.settledLine_idem]

theorem settle_levelled (before after : Plant) : (settle before after).Levelled := Plant.settlePins_levelled _

/-- Where the proof timers' conditions are as before, only the levels follow. -/
theorem settle_of_shouldRun {before after : Plant} (h : ∀ z, after.shouldRun z = before.shouldRun z) :
    settle before after = after.settlePins := by
  have hs : ∀ z, settleProof before after z = after := fun z => by
    unfold settleProof
    rw [h z]
    cases before.shouldRun z <;> rfl
  unfold settle
  rw [Plant.eachZone_eq, hs, hs, hs, hs]

/-- An event that changes nothing changes no level of a plant at its levels. -/
theorem settle_self {p : Plant} (h : p.Levelled) : settle p p = p := by
  rw [settle_of_shouldRun fun _ => rfl]
  exact (p.levelled_iff).1 h

/-- An event that leaves everything that the levels follow from leaves the levels (R126, R129, R151, R179). -/
theorem settle_of_same {p q : Plant} (h : p.Levelled) (hz : q.zones = p.zones) (hl : q.lines = p.lines)
    (hf : q.fieldEnabled = p.fieldEnabled) (hc : q.work.config.lines = p.work.config.lines)
    (hk : q.kiln.safeVent = p.kiln.safeVent) (ha : q.alerts = p.alerts) (ht : q.attn = p.attn) : settle p q = q := by
  have hi : ∀ i, q.lineItems i = p.lineItems i := fun i => by unfold Plant.lineItems; rw [hc]
  have hp : ∀ z, q.proof z = p.proof z := fun z => by
    unfold Plant.proof Plant.anyLine
    rw [hl]
    simp only [hi]
  have hu : ∀ z, q.unit z = p.unit z := fun z => by unfold Plant.unit; rw [hz]
  rw [settle_of_shouldRun fun z => by unfold Plant.shouldRun; rw [hp z, hu z, hf]]
  refine (q.levelled_iff).1 ⟨?_, fun z => ?_, fun i => ?_⟩
  · rw [ht, ha, h.attn]
  · rw [hu z, hf, hk]; exact h.pins z
  · unfold Plant.settledLine Plant.driveLevel
    rw [hl, hf, hi i]
    exact h.lines i

end Sys2Proof.Machine
end

