-- ==== Sys2Proof/Tests/Slice0.lean ====
section
/-! SUPPORT. Tests: what WellFormed refuses, the manual's worked examples one step at a time, and for every statement with
hypotheses a state and operands that meet them. Expected values come from the manual's tables or are worked out by hand from its
rules. -/

namespace Sys2Proof.Tests

open Sys2Proof Sys2Proof.Machine

-- Many kernel evaluations at once would need more threads than a small sandbox gives.
set_option Elab.async false

/-! ### Helpers -/

/-- An addressed envelope with tag 7. -/
def env : Envelope := ⟨false, 7⟩

/-- The state a command leaves. -/
def after (s : State) (c : Instr) : State :=
  match exec c s with
  | .next t => t
  | _ => s

/-- The answer of the unanswered request. -/
def answer (s : State) : Option Answer := s.link.unanswered.map (·.answer)

/-- The status code a request is answered with. -/
def status (s : State) (c : Instr) : Option Status := (answer (after s c)).map (·.status)

/-- The state right after a power-on reset with the gate opened. -/
def opened : State := { State.reset with link := { State.reset.link with gate := .open } }

/-- Three records: two steps of DRYING and one of COOLDOWN. -/
def first : StepRecord := ⟨false, 500, 40, 20, 200, .used, 10, 100, 0⟩
def second : StepRecord := ⟨true, 600, 60, 20, 100, .used, 10, 100, 0⟩
def cool : StepRecord := ⟨true, 300, 50, 0, 0, .notUsed, 0, 100, 0⟩

/-- A part with a schedule in every zone and the field enabled. -/
def loaded : State :=
  { opened with
    plant :=
      { opened.plant with
        fieldEnabled := true
        work :=
          { opened.plant.work with
            records := (((Table.fill 128 none).set 0 (some first)).set 1 (some second)).set 2 (some cool)
            entries := .all { drying := some 0, cooldown := some 2 } } } }

/-- The loaded part with another unit of zone A. -/
def withA (u : ZoneUnit) : State := { loaded with plant := loaded.plant.put .a u }

/-- Zone A's unit after reset. -/
def rest : ZoneUnit := loaded.plant.unit .a

/-- A zone in DRYING at its first step, at its targets, with its fan running. -/
def drying : ZoneUnit :=
  { rest with
    ctx := { rest.ctx with state := .phase .drying, stepIndex := some 0, activeCopy := some first }
    climate :=
      { rest.climate with
        dbSetpoint := some 500, wbSetpoint := some 460, rampRate := 20, dbTarget := 30000, wbTarget := 27600 }
    output := { rest.output with fan := { machine := .runFwd } } }

/-- The same zone on its way to its targets. -/
def ramping : ZoneUnit :=
  { drying with climate := { drying.climate with dbTarget := 29990, wbTarget := 27000, rampTimer := some 60000 } }

/-- The same zone in HELD by HOST, and in SAFE by DOOR. -/
def held : ZoneUnit :=
  { drying with ctx := { drying.ctx with state := .held, underlying := some .drying, holds := { host := true } } }
def safe : ZoneUnit :=
  { drying with
    ctx := { drying.ctx with state := .safe, underlying := some .drying }
    causes := { door := true }
    output := { drying.output with fan := {} } }

/-- A unit with its context, climate or output changed. -/
def ctxOf (u : ZoneUnit) (f : ZoneContext → ZoneContext) : ZoneUnit := { u with ctx := f u.ctx }
def climateOf (u : ZoneUnit) (f : ClimateState → ClimateState) : ZoneUnit := { u with climate := f u.climate }
def outputOf (u : ZoneUnit) (f : OutputState → OutputState) : ZoneUnit := { u with output := f u.output }

/-- A state with its plant, its configuration or its link changed. -/
def plantOf (s : State) (f : Plant → Plant) : State := { s with plant := f s.plant }
def configOf (s : State) (f : Configuration → Configuration) : State :=
  { s with plant := { s.plant with work := { s.plant.work with config := f s.plant.work.config } } }
def linkOf (s : State) (f : LinkState → LinkState) : State := { s with link := f s.link }

/-- The ZONE items of zone A changed. -/
def itemsOf (s : State) (f : ZoneConfig → ZoneConfig) : State :=
  configOf s fun c => { c with zones := { c.zones with a := f c.zones.a } }

/-- The LINE item and the volatile items of line L0 changed. -/
def lineOf (s : State) (c : LineConfig) (f : LineState → LineState) : State :=
  plantOf (configOf s fun x => { x with lines := x.lines.set 0 c }) fun p =>
    { p with lines := p.lines.set 0 (f (p.lines.get 0)) }

/-- A probe with a record put at an entry. -/
def probeAt (s : State) (i : Fin 64) (c : ProbeConfig) (r : ProbeRecord) : State :=
  plantOf s fun p =>
    { p with
      work := { p.work with probes := p.work.probes.set i c }
      records := p.records.set i (some r) }

/-- Zone A's valid moisture probe at an address. -/
def moist (position : Fin 64) : ProbeConfig := { zone := some .a, position := position }
def valid (v : Int) : ProbeRecord := { state := .valid, lastAccepted := some v }

/-- A pass measurement of an entry in flight. -/
def measuring (i : Fin 64) (who : Requester) (kind : ProbeKind) (stale : Bool) : Measurement :=
  { requester := who, entry := i, kind := kind, bank := 0, position := i, window := .default, samples := 4,
    duration := 180, stale := stale }

def inFlight (s : State) (m : Measurement) : State :=
  plantOf s fun p => { p with frontEnd := { inFlight := some m, previous := some .default } }

theorem ready {s : State} (k : RequestKind)
    (h : s.mode = .running ∧ s.link.txen = false ∧ s.link.unanswered = none ∧ s.link.gate = .open) : s.Ready k :=
  ⟨h.1, h.2.1, h.2.2.1, fun _ => h.2.2.2⟩

/-! ### What WellFormed refuses -/

theorem test_wellFormed_operands :
    Instr.wellFormed (.identify ⟨false, 256⟩) = false ∧ Instr.wellFormed (.probeRead env 256) = false ∧
    Instr.wellFormed (.unlock env (List.replicate 7 0)) = false ∧
    Instr.wellFormed (.changeCode env (List.replicate 9 0)) = false ∧
    Instr.wellFormed (.acknowledgeAlerts env (List.replicate 124 (0, 0))) = false ∧
    Instr.wellFormed (.acknowledgeAlerts env [(0, 256)]) = false ∧
    Instr.wellFormed (.cwGroup env 0 65536) = false ∧ Instr.wellFormed (.cwDefault env 0 256) = false ∧
    Instr.wellFormed (.configurationRead env 7 0) = false ∧ Instr.wellFormed (.configurationRead env 0 1) = false ∧
    Instr.wellFormed (.speciesWrite env 0 0 [1, 2]) = false ∧
    Instr.wellFormed (.speciesWrite env 0 65536 (List.replicate 9 0)) = false ∧
    Instr.wellFormed (.delayedStartMinutes env 65536) = false ∧ Instr.wellFormed (.lineModify env 65536 0) = false := by
  decide +kernel

theorem test_wellFormed_records :
    RawKiln.wf ⟨32768, 0, 0, 0, 0, 0⟩ = false ∧ RawKiln.wf ⟨0, 0, 256, 0, 0, 0⟩ = false ∧
    RawZone.wf ⟨256, 0, 0, 0, 0, 0, 0, 0, 0, 0, 0, 0, 0, 0, 0, 0⟩ = false ∧
    RawZone.wf ⟨0, 0, 0, 0, 0, -32769, 0, 0, 0, 0, 0, 0, 0, 0, 0, 0⟩ = false ∧
    RawZone.wf ⟨0, 0, 0, 0, 0, 0, 0, 65536, 0, 0, 0, 0, 0, 0, 0, 0⟩ = false ∧
    RawWindow.wf ⟨0, 0, 0, 65536, 0, 0⟩ = false ∧ RawLine.wf ⟨0, 0, 0, 256, 0, 0⟩ = false ∧
    RawProbe.wf ⟨⟨256, 0⟩, 0, 0, 0, 0, ⟨0, 0⟩⟩ = false ∧ RawProbe.wf ⟨⟨0, 0⟩, 0, 0, 0, 0, ⟨0, 256⟩⟩ = false ∧
    RawStep.wf ⟨0, 0, 32768, 0, 0, 0, 0, 0, 0⟩ = false ∧ RawStep.wf ⟨0, 0, 0, 0, 65536, 0, 0, 0, 0⟩ = false ∧
    RawEntries.wf ⟨⟨0, 0⟩, ⟨0, 0⟩, ⟨0, 0⟩, ⟨0, 0⟩, ⟨0, 256⟩⟩ = false := by decide +kernel

theorem test_wellFormed_events :
    Instr.wellFormed (.badLengthByte 3) = false ∧ Instr.wellFormed (.badLengthByte 250) = false ∧
    Instr.wellFormed (.measurementCompletion (List.replicate 15 0)) = false ∧
    Instr.wellFormed (.climateSampleComplete .a 32768 0) = false ∧
    Instr.wellFormed (.climateSampleComplete .a 0 (-32769)) = false := by decide +kernel

/-! ### The link (section 11.7, R169 to R182) -/

/-- The check value of R170. -/
theorem test_crc : crcOf [0x31, 0x32, 0x33, 0x34, 0x35, 0x36, 0x37, 0x38, 0x39] = 0x29B1#16 := by decide +kernel

/-- Strap value 0 gives station 1, any other its own (R169). -/
theorem test_station : Straps.station ⟨0, 0, 0⟩ = 1 ∧ Straps.station ⟨5, 1, 0⟩ = 5 := by decide

/-- The table gives no row any bits. -/
theorem test_decodeTableWord : decodeTableWord 32 0 = none ∧ State.reset.withFetchWord 32 0 = State.reset :=
  ⟨rfl, rfl⟩

/-- Tags 1 to 3 of section 11.7: ST reports the locked gate and one pair, AK takes it, ATTN# is released. -/
theorem test_status : status State.reset (.status env) = some .ok := by decide +kernel

theorem test_acknowledgeAlerts :
    (after State.reset (.acknowledgeAlerts env [(4, 0)])).plant.alerts = [] ∧
      (after State.reset (.acknowledgeAlerts env [(4, 0)])).plant.attn = false ∧
      status State.reset (.acknowledgeAlerts env [(4, 4)]) = some .badValue := by decide +kernel

/-- ID returns the part's items (R182). -/
theorem test_identify : (answer (after State.reset (.identify env))).map (·.content) = some (.identity ⟨0, 0, 0⟩) := by
  decide +kernel

/-- Tag 4: SW is refused while the gate is LOCKED; tag 5: the stored code opens it, another bars it. -/
theorem test_writeRecord_locked : status State.reset (.writeRecord env none) = some .denied := by decide +kernel

theorem test_unlock :
    (after State.reset (.unlock env (List.replicate 8 0))).link.gate = .open ∧
      (after State.reset (.unlock env (List.replicate 8 1))).link.gate = .barred := by decide +kernel

/-- A new code is what UN compares with at once (R177). -/
theorem test_changeCode :
    (after opened (.changeCode env (List.replicate 8 9))).plant.work.code = List.replicate 8 9 := by decide +kernel

/-- RS is answered first and CC clears both counters (R162, R165). -/
theorem test_rsReset :
    (after opened (.rsReset env)).mode = .running ∧
      (after opened (.rsReset env)).link.unanswered.map (·.resets) = some true := by decide +kernel

theorem test_clearCauses :
    (after (linkOf opened fun l => { l with overruns := 5 }) (.clearCauses env)).link.overruns = 0 := by decide +kernel

/-- A frame for tag 7 that completes while tag 6 is unanswered counts an overrun (section 11.7). -/
theorem test_overrun :
    (after (after opened (.writeRecord env none)) (.status env)).link.overruns = 1 := by decide +kernel

/-- ST with tag 1 for station 1, byte by byte (R170): C3 01 03 53 54 01 and its CRC. -/
def statusFrame : List Byte := [0xC3, 0x01, 0x03, 0x53, 0x54, 0x01] ++ crcBytes (crcOf [0x01, 0x03, 0x53, 0x54, 0x01])

theorem test_frame :
    requestFrame 1 .st 1 [] = statusFrame ∧ statusFrame.length = 8 ∧
      (after (linkOf opened fun l => { l with receiver := .frame (statusFrame.take 7) })
        (.frameComplete (statusFrame.getD 7 0))).link.unanswered.map (·.tag) = some 1 := by decide +kernel

theorem test_byteArrival :
    (after opened (.byteArrival 0xC3)).link.receiver = .frame [0xC3] ∧
      (after opened (.byteArrival 0x01)).link.receiver = .hunt := by decide +kernel

/-- A state that has collected a sync byte and a station byte. -/
def collecting : State := linkOf opened fun l => { l with receiver := .frame [0xC3, 0x01] }

theorem test_badLengthByte :
    (after collecting (.badLengthByte 2)).link.checkErrors = 1 ∧
      (after collecting (.badLengthByte 251)).link.receiver = .hunt := by decide +kernel

theorem test_discards :
    (after collecting .interByteTimeout).link.receiver = .hunt ∧ (after collecting .stopBitError).link.receiver = .hunt ∧
      (after collecting .lineBreak).link.receiver = .hunt ∧ (after collecting .lineBreak).link.checkErrors = 0 := by
  decide +kernel

/-- The reply to ST carries "st" (R173); its end leaves no request unanswered. -/
theorem test_replyStart :
    ((after (after opened (.status env)) .replyStart).link.sending.drop 3).take 3 = [0x73, 0x74, 0x07] := by
  decide +kernel

theorem test_replyEnd :
    (after (after (after opened (.status env)) .replyStart) .replyEnd).link.unanswered = none := by decide +kernel

/-- The payloads of section 11.7: SW of S20 has n = 19, EW of zone A n = 14. -/
theorem test_payload_lengths :
    ((encodeRequest (.writeRecord env (some ⟨0, 430, 30, 10, 250, 0, 1440, 7200, 180⟩))).map fun x => x.2.length + 3) =
        some 19 ∧
      ((encodeRequest (.entryTableWrite env 0 ⟨⟨0, 0⟩, ⟨1, 20⟩, ⟨0, 0⟩, ⟨0, 0⟩, ⟨1, 21⟩⟩)).map fun x => x.2.length + 3) =
        some 14 := by decide +kernel

/-! ### Configuration (R8, R19, R103, R146, R176) -/

/-- A maximum above 1200 is set to 1200 and answered CLAMPED. -/
theorem test_cwKiln :
    (after opened (.cwKiln env ⟨1300, 30, 0, 1, 30, 10⟩)).plant.kiln.maximumDb = 1200 ∧
      status opened (.cwKiln env ⟨1300, 30, 0, 1, 30, 10⟩) = some .clamped := by decide +kernel

theorem test_cwZone :
    ((after opened (.cwZone env 1 ⟨0, 3, 2, 20, 3, 30, 20, 60, 20, 30, 20, 20, 1, 7, 1, 1⟩)).plant.items .b).passInterval =
      1 := by decide +kernel

theorem test_cwGroup :
    (after opened (.cwGroup env 0 1441)).plant.work.config.group.waitLimit = 1440 ∧
      status opened (.cwGroup env 2 0) = some .badValue := by decide +kernel

theorem test_cwScan :
    (after opened (.cwScan env 1 1 0)).plant.work.config.scan = { mode := .favor, favoured := .b, spotEnabled := true } ∧
      status opened (.cwScan env 2 0 0) = some .badValue := by decide +kernel

theorem test_cwWindow :
    ((after opened (.cwWindow env 3 ⟨1, 0, 8, 200, 8, 1⟩)).plant.work.config.windows.get 3).samples = 8 ∧
      status opened (.cwWindow env 3 ⟨1, 0, 8, 200, 3, 1⟩) = some .badValue := by decide +kernel

theorem test_cwDefault :
    (after opened (.cwDefault env 5 4)).plant.work.config.default.settle = 10 := by decide +kernel

theorem test_cwLine :
    ((after opened (.cwLine env 7 ⟨5, 0, 0, 9, 1, 0⟩)).plant.lineItems 7) =
      { role := .alarmOut, zone := .a, polarity := .activeHigh, debounce := 7, safeActive := false, keep := true } := by
  decide +kernel

theorem test_configurationRead :
    status opened (.configurationRead env 6 15) = some .ok ∧
      status opened (.configurationRead env 6 16) = some .badValue := by decide +kernel

/-! ### Probes, readings and aggregates (sections 1.9, 2.8, 2.9, 3.8, 3.9) -/

/-- R2: a free entry takes a probe; a second assigned entry may not have its address. -/
theorem test_probeWrite :
    status opened (.probeWrite env 9 ⟨⟨1, 0⟩, 0, 1, 12, 2, ⟨0, 0⟩⟩) = some .ok ∧
      status (probeAt opened 8 { zone := some .a, bank := 1, position := 12 } {})
          (.probeWrite env 9 ⟨⟨1, 0⟩, 0, 1, 12, 2, ⟨0, 0⟩⟩) =
        some .conflict := by decide +kernel

theorem test_probeRead :
    status opened (.probeRead env 63) = some .ok ∧ status opened (.probeRead env 64) = some .badValue := by
  decide +kernel

/-- PX makes a valid entry EXCLUDED and keeps its value; PI makes it UNSEEN (R46, R47). -/
theorem test_excludeProbe :
    (after (probeAt opened 9 (moist 9) (valid 118)) (.excludeProbe env 9)).plant.records.get 9 =
      some { state := .excluded, lastAccepted := some 118 } := by decide +kernel

theorem test_reinstateProbe :
    (after (probeAt opened 9 (moist 9) { state := .failed, lastAccepted := some 97, failStreak := 3 })
        (.reinstateProbe env 9)).plant.records.get 9 =
      some { state := .unseen, lastAccepted := some 97 } := by decide +kernel

/-- SP in a free front end is granted in its event; SR in EMPTY is refused (R20, R22). -/
theorem test_spotRequest :
    (after opened (.spotRequest env 30)).plant.spot = .measuring 30 ∧
      (after opened (.spotRequest env 30)).plant.mux = 0x40#8 ∧
      status opened (.spotRequest env 64) = some .badValue := by decide +kernel

theorem test_spotResult :
    status opened (.spotResult env) = some .wrongState ∧
      status (plantOf opened fun p => { p with spot := .waiting 3 }) (.spotResult env) = some .pending := by
  decide +kernel

/-- The species table of section 2.8: knot 4 is 131. A knot above the one before it is refused (R32). -/
theorem test_speciesRead : (opened.plant.work.species.get 0).knot 4 = 131 ∧
    status opened (.speciesRead env 8) = some .badValue := by decide +kernel

theorem test_speciesWrite :
    status opened (.speciesWrite env 0 160 [300, 240, 196, 160, 131, 107, 88, 73, 74]) = some .badValue ∧
      ((after (probeAt opened 9 (moist 9) (valid 290))
          (.speciesWrite env 0 160 [250, 240, 196, 160, 131, 107, 88, 73, 62])).plant.records.get 9) =
        some (valid 250) := by decide +kernel

/-- Section 2.8: samples 478, 481, 480, 482 give L = 480, at 60.0 degrees an MC of 119 and at 15.0 degrees of 149. -/
theorem test_reading :
    average .moisture 4 [478, 481, 480, 482] = 480 ∧
      ((probeAt opened 8 { zone := some .b, kind := .woodTemp, position := 8 } (valid 600)).plant.readingOf
          { zone := some .b, position := 9, source := some 8 } .moisture 480) = { value := 119, flags := {} } ∧
      ((probeAt opened 8 { zone := some .b, kind := .woodTemp, position := 8 } (valid 150)).plant.readingOf
          { zone := some .b, position := 9, source := some 8 } .moisture 480) = { value := 149, flags := {} } := by
  decide +kernel

/-- R26: -250 is read as -200 and 1350 as 1200. -/
theorem test_temperature_clamp :
    (opened.plant.readingOf {} .woodTemp (-250)).value = -200 ∧
      (opened.plant.readingOf {} .woodTemp 1350).value = 1200 := by decide +kernel

/-- Zone C of section 3.9. -/
def zoneC : State :=
  let m (i : Fin 64) : ProbeConfig := { zone := some .c, position := i }
  let w (i : Fin 64) : ProbeConfig := { zone := some .c, kind := .woodTemp, position := i }
  let a := probeAt (probeAt (probeAt opened 20 (m 20) (valid 245)) 21 (m 21) (valid 228)) 22 (m 22)
    { state := .held, lastAccepted := some 231, candidate := some 290 }
  let b := probeAt (probeAt (probeAt a 23 (m 23) (valid 219)) 24 (m 24) (valid 260)) 25 (m 25) (valid 201)
  let c := probeAt (probeAt b 26 (m 26) { state := .short, lastAccepted := some 300 }) 27 (m 27)
    { state := .excluded, lastAccepted := some 280 }
  probeAt (probeAt c 28 (w 28) (valid 548)) 29 (w 29) { state := .held, lastAccepted := some 553, candidate := some 590 }

theorem test_aggregate :
    zoneC.plant.formAggregate .c =
      { count := 6
        cmc := some { value := 245, aboveRange := false }
        dmc := some 201
        contributing := [24, 20, 22]
        zwt := some 551
        blind := false } := by decide +kernel

/-- Passes 3, 6 and 9 of section 3.8: case 4, case 2 and case 3 of the jump rule. -/
theorem test_jump_rule :
    ((valid 168).judgeReading 20 ⟨212, {}⟩ none).state = .held ∧
      (({ state := .held, lastAccepted := some 165, candidate := some 121, heldCount := 1 } : ProbeRecord).judgeReading 20
        ⟨118, {}⟩ none) = valid 118 ∧
      (({ state := .held, lastAccepted := some 118, candidate := some 190, heldCount := 2 } : ProbeRecord).judgeReading 20
        ⟨95, {}⟩ none) = valid 95 := by decide +kernel

/-- Pass 15 of section 3.8: the third SHORT in a row makes P9 FAILED, with PROBE_FAILED. -/
theorem test_measurementCompletion :
    let s :=
      inFlight (probeAt opened 9 { zone := some .b, position := 9 } { state := .short, lastAccepted := some 97, failStreak := 2 })
        (measuring 9 (.zone .b) .moisture false)
    ((after s (.measurementCompletion (List.replicate 16 118))).plant.records.get 9) =
        some { state := .failed, lastRaw := some 118, lastAccepted := some 97, failStreak := 3 } ∧
      .zone .b .probeFailed ∈ (after s (.measurementCompletion (List.replicate 16 118))).plant.alerts := by decide +kernel

/-- Grants 1, 2 and 10 of section 1.9: FAVOR with favoured B. -/
def favouring (turn : FavourTurn) (pointer : Requester) (zones : List Zone) (spot : Bool) : Plant :=
  let s := configOf opened fun c => { c with scan := { mode := .favor, favoured := .b, spotEnabled := true } }
  { s.plant with
    arbiter := { pointer := pointer, turn := turn }
    spot := if spot then .waiting 30 else .empty
    zones :=
      PerZone.tabulate fun z =>
        { s.plant.unit z with
          pass := { (s.plant.unit z).pass with progress := if z ∈ zones then some ⟨[0], [0]⟩ else none } } }

theorem test_arbiter :
    (favouring .favoured (.zone .d) [.a, .b, .c] true).choose = some (.zone .b, { pointer := .zone .d, turn := .others }) ∧
      (favouring .others (.zone .d) [.a, .b, .c] true).choose = some (.spot, { pointer := .spot, turn := .favoured }) ∧
      (favouring .favoured (.zone .c) [.a] false).choose = some (.zone .a, { pointer := .zone .a, turn := .favoured }) := by
  decide +kernel

/-- A zone with one probe starts a pass and its first measurement at the expiry (R13, R14, R16). -/
theorem test_passTimerExpiry :
    (after (probeAt opened 9 (moist 9) (valid 100)) (.passTimerExpiry .a)).plant.frontEnd.inFlight.map (·.entry) =
      some 9 := by decide +kernel

/-! ### Schedules (R58 to R67) -/

theorem test_setCursor :
    (after opened (.setCursor env 20)).plant.cursor = 20 ∧ status opened (.setCursor env 128) = some .badValue := by
  decide +kernel

/-- Tag 6 of section 11.7 writes at the cursor and moves it; tag 9's depression of 500 is refused. -/
theorem test_writeRecord :
    (after opened (.writeRecord env (some ⟨0, 430, 30, 10, 250, 0, 1440, 7200, 180⟩))).plant.cursor = 1 ∧
      status opened (.writeRecord env (some ⟨0, 600, 500, 0, 0, 0, 120, 720, 0⟩)) = some .badValue := by decide +kernel

theorem test_readRecord :
    (after (plantOf opened fun p => { p with cursor := 127 }) (.readRecord env)).plant.cursor = 0 := by decide +kernel

theorem test_entryTable :
    ((after opened (.entryTableWrite env 0 ⟨⟨0, 9⟩, ⟨1, 20⟩, ⟨0, 0⟩, ⟨0, 0⟩, ⟨1, 21⟩⟩)).plant.work.entries.get .a) =
        { drying := some 20, cooldown := some 21 } ∧
      status opened (.entryTableRead env 4) = some .badValue := by decide +kernel

theorem test_validation :
    loaded.plant.validate .a = none ∧ opened.plant.validate .a = some ⟨.drying, .noEntry, none⟩ ∧
      (walk loaded.plant.work.records 0).1 = [0, 1] := by decide +kernel

/-! ### Zones (chapters 5, 6 and 8) -/

/-- Tag 12 of section 11.7: GO with the field disabled is refused; tag 14: with it enabled the zone is STARTING. -/
theorem test_startZone :
    status opened (.startZone env 0) = some .wrongState ∧
      ((after loaded (.startZone env 0)).plant.ctx .a).state = .starting := by decide +kernel

/-- Step 2 of section 5.14: HD during a ramp sets hold-pending; without one the zone is HELD. -/
theorem test_hold :
    ((after (withA ramping) (.hold env 0)).plant.ctx .a).holdPending = true ∧
      ((after (withA drying) (.hold env 4)).plant.ctx .a).state = .held := by decide +kernel

/-- Steps 5 and 6 of section 5.14: while LINE remains the zone stays HELD; then it returns to DRYING. -/
theorem test_resume :
    ((after (withA (ctxOf held fun c => { c with holds := ⟨true, true⟩ })) (.resume env 0)).plant.ctx .a).state = .held ∧
      ((after (withA held) (.resume env 0)).plant.ctx .a).state = .phase .drying := by decide +kernel

/-- Step 7 of section 5.14: SK advances with SKIPPED to the next record. -/
theorem test_skip :
    ((after (withA drying) (.skip env 0)).plant.ctx .a).stepIndex = some 1 ∧
      ((after (withA drying) (.skip env 0)).plant.ctx .a).runRecord.map (fun e => (e.kind, e.reason)) =
        [(.stepLeft, some .skipped)] := by decide +kernel

/-- Step 8 of section 5.14: AB goes to COOLDOWN, whose ramp rate of 0 sets the targets at once. -/
theorem test_abort :
    ((after (withA drying) (.abort env 0)).plant.ctx .a).state = .phase .cooldown ∧
      ((after (withA drying) (.abort env 0)).plant.unit .a).climate.dbTarget = 18000 := by decide +kernel

theorem test_reloadStep :
    ((after (withA (ctxOf drying fun c => { c with activeCopy := some cool })) (.reloadStep env 0)).plant.ctx .a).activeCopy =
      some first := by decide +kernel

theorem test_clearDone :
    ((after (withA (ctxOf rest fun c => { c with state := .done })) (.clearDone env 0)).plant.ctx .a).state = .idle ∧
      status loaded (.clearDone env 0) = some .wrongState := by decide +kernel

/-- RV takes FAN from the set and leaves DOOR (R141). -/
theorem test_recover :
    ((after (withA { safe with causes := { door := true, fan := true } }) (.recover env 0)).plant.unit .a).causes =
        { door := true } ∧
      ((after (withA { safe with causes := { fan := true } }) (.recover env 0)).plant.ctx .a).state = .held := by
  decide +kernel

theorem test_delayedStart :
    (after opened (.delayedStartMinutes env 10080)).plant.delayedStart = some 604800000 ∧
      status opened (.delayedStartMinutes env 10081) = some .badValue := by decide +kernel

theorem test_delayedStart_forms :
    (after (plantOf opened fun p => { p with delayedStart := some 1 }) (.delayedStartCancel env)).plant.delayedStart = none ∧
      (answer (after (plantOf opened fun p => { p with delayedStart := some 60001 }) (.delayedStartQuery env))).map
          (·.content) =
        some (.delayLeft (some 2)) := by decide +kernel

theorem test_zoneRead :
    status opened (.zoneRead env 3) = some .ok ∧ status opened (.zoneRead env 4) = some .badValue := by decide +kernel

theorem test_runRecordRead :
    status opened (.runRecordRead env 0 47) = some .ok ∧ status opened (.runRecordRead env 0 48) = some .badValue := by
  decide +kernel

/-- Zone A's minute in DRYING advances both clocks; in HELD the run clock alone (R76). -/
theorem test_minuteTimerExpiry :
    ((after (withA drying) (.minuteTimerExpiry .a)).plant.ctx .a).stepClock = 1 ∧
      ((after (withA held) (.minuteTimerExpiry .a)).plant.ctx .a).stepClock = 0 ∧
      ((after (withA held) (.minuteTimerExpiry .a)).plant.ctx .a).runClock = 1 := by decide +kernel

/-- A zone in STARTING whose timeout runs. -/
def starting : ZoneUnit := ctxOf rest fun c => { c with state := .starting, startTimeout := some 60000 }

theorem test_startTimeoutExpiry :
    ((after (withA starting) (.startTimeoutExpiry .a)).plant.ctx .a).lastFailure.map (·.cause) = some .timeout := by
  decide +kernel

theorem test_groupStartTimeoutExpiry :
    ((after (plantOf (itemsOf (withA starting) fun c => { c with grouped := true }) fun p => { p with groupTimeout := some 1 })
        .groupStartTimeoutExpiry).plant.ctx .a).state = .idle := by decide +kernel

/-- Zone A of the loaded part with TIMER in its start mask. -/
def timed : State :=
  itemsOf (plantOf loaded fun p => { p with delayedStart := some 1 }) fun c => { c with startMask := ⟨true, false, true⟩ }

theorem test_delayedStartExpiry :
    ((after timed .delayedStartExpiry).plant.ctx .a).state = .starting ∧
      ((after timed .delayedStartExpiry).plant.ctx .b).state = .idle := by decide +kernel

/-! ### Climate and outputs (sections 7.10 and 7.11) -/

/-- A sample above 1300 makes the sensor FAULTY and takes a running zone into SAFE (R115, R135, R139). -/
theorem test_climateSampleComplete :
    ((after (withA drying) (.climateSampleComplete .a 1301 400)).plant.ctx .a).state = .safe ∧
      ((after (withA drying) (.climateSampleComplete .a 1300 400)).plant.unit .a).climate.db.value = some 1300 := by
  decide +kernel

/-- Ramp minute 1 of section 7.10. -/
theorem test_rampMinuteExpiry :
    let u := climateOf drying fun c =>
      { c with dbSetpoint := some 660, wbSetpoint := some 600, dbTarget := 36000, wbTarget := 33600, rampTimer := some 1 }
    ((after (withA u) (.rampMinuteExpiry .a)).plant.unit .a).climate.dbTarget = 36020 ∧
      ((after (withA u) (.rampMinuteExpiry .a)).plant.unit .a).climate.wbTarget = 33620 ∧ reported 36040 = 601 := by
  decide +kernel

/-- The period starts 0:20 and 60:20 of section 7.10: HEAT 14 s and VENT 18 s; HEAT 18 s and SPRAY 3 s. -/
def sampledAt (db wb : Int) (dbTarget wbTarget : Int) : ZoneUnit :=
  climateOf drying fun c =>
    { c with
      dbTarget := dbTarget, wbTarget := wbTarget, db := { status := .good, value := some db },
      wb := { status := .good, value := some wb } }

theorem test_pulsePeriodStart :
    let a := (after (withA (sampledAt 593 566 36000 33600)) (.pulsePeriodStart .a)).plant.unit .a
    let b := (after (withA (sampledAt 611 579 37200 34800)) (.pulsePeriodStart .a)).plant.unit .a
    (a.output.heat.onTime, a.output.spray.onTime, a.output.vent.onTime) = (14, 0, 18) ∧
      (b.output.heat.onTime, b.output.spray.onTime, b.output.vent.onTime) = (18, 3, 0) := by decide +kernel

theorem test_onTimeExpiry :
    let u := outputOf drying fun o => { o with heat := { level := true, onTime := 14, timer := some 1 } }
    ((after (withA u) (.onTimeExpiry .a .heat)).plant.unit .a).output.heat = { level := false, onTime := 14, timer := none } := by
  decide +kernel

/-- 90:35 of section 7.10: at the end of the dwell the direction is REVERSE, the machine RUN_REV and the count 0. -/
theorem test_dwellExpiry :
    let u := outputOf drying fun o => { o with fan := ⟨.dwellToRev, .forward, 240, 240, some 1⟩ }
    ((after (withA u) (.dwellExpiry .a)).plant.unit .a).output.fan = ⟨.runRev, .reverse, 0, 240, none⟩ ∧
      ((after (withA u) (.dwellExpiry .a)).plant.unit .a).output.proofTimer = some 20000 := by decide +kernel

theorem test_proofDelayExpiry :
    let u := outputOf drying fun o => { o with proofTimer := some 1 }
    ((after (withA u) (.proofDelayExpiry .a)).plant.unit .a).causes = { fan := true } := by decide +kernel

/-- Minutes 0 and 1 of section 7.11: SPRAY ON is OK and starts the lapse timer, VENT ON then a CONFLICT. -/
theorem test_override :
    (after (withA drying) (.override env 0 1 1)).plant.lapse = some 600000 ∧
      status (withA (outputOf drying fun o => { o with overrides := { spray := .on } })) (.override env 0 2 1) =
        some .conflict := by decide +kernel

theorem test_releaseOverride :
    (after (plantOf (withA (outputOf drying fun o => { o with overrides := { spray := .on } })) fun p => { p with lapse := some 5 })
        (.releaseOverride env 0 1)).plant.lapse = none := by decide +kernel

theorem test_refreshOverrides :
    (after (plantOf (withA (outputOf drying fun o => { o with overrides := { heat := .off } })) fun p => { p with lapse := some 5 })
        (.refreshOverrides env)).plant.lapse = some 600000 := by decide +kernel

theorem test_overrideLapseExpiry :
    (after (plantOf (withA (outputOf drying fun o => { o with overrides := { heat := .off } })) fun p => { p with lapse := some 5 })
        .overrideLapseExpiry).plant.alerts = [.device .resetSeen, .device .overrideLapsed] := by decide +kernel

theorem test_field :
    (after opened (.fieldEnable env)).plant.fieldEnabled = true ∧ (after loaded (.fieldDisable env)).plant.fieldEnabled = false ∧
      status (withA drying) (.fieldDisable env) = some .wrongState := by decide +kernel

/-! ### Lines (section 9.7) -/

/-- L0 as L3 of section 9.7: START_BUTTON, ACTIVE_LOW, 50 ms, settled INACTIVE with the pin HIGH. -/
def button : State :=
  lineOf loaded { role := .startButton, polarity := .activeLow, debounce := 3 } fun l =>
    { l with external := true, pin := true, settled := true, timer := none }

theorem test_pinChange :
    ((after button (.pinChange 0 false)).plant.lines.get 0).timer = some 50 ∧
      ((after (after button (.pinChange 0 false)) (.pinChange 0 true)).plant.lines.get 0).timer = none := by decide +kernel

/-- Time 65 of section 9.7: the activation starts a zone with LINE in its start mask. -/
theorem test_debounceTimerExpiry :
    let s := itemsOf (after button (.pinChange 0 false)) fun c => { c with startMask := ⟨false, true, false⟩ }
    ((after s (.debounceTimerExpiry 0)).plant.ctx .a).state = .starting := by decide +kernel

/-- LW sets the latch of an output line; a mask with an input is refused (R152). -/
theorem test_lineModify :
    let s := lineOf opened { role := .alarmOut, keep := true } fun l => { l with settled := true, timer := none }
    ((after s (.lineModify env 1 1)).plant.lines.get 0).pin = true ∧ status s (.lineModify env 3 1) = some .badValue := by
  decide +kernel

theorem test_lineRead : status opened (.lineRead env) = some .ok := by decide +kernel

/-! ### The store and resets (chapter 10) -/

/-- A host item begins its write at once with the working copy and completes into the store (R158). -/
theorem test_storeWriteComplete :
    (after (after opened (.changeCode env (List.replicate 8 9))) .storeWriteComplete).plant.store.accessCode =
        some (List.replicate 8 9) ∧
      (after (after opened (.changeCode env (List.replicate 8 9))) .storeWriteComplete).plant.queue = {} := by decide +kernel

/-- A write cut by the loss of the supply leaves its section failing; the code is zeros again after the restart (R157, R177). -/
theorem test_powerLoss :
    (after (after opened (.changeCode env (List.replicate 8 9))) .powerLoss).plant.store.accessCode = none := by
  decide +kernel

theorem test_powerOnReset :
    (after (linkOf opened fun l => { l with gate := .barred, checkErrors := 3 }) .powerOnReset).link =
      { cause := { powerOn := true } } := by decide +kernel

theorem test_pinReset :
    (after opened .pinReset).link.cause = ⟨true, true, false, .pin⟩ ∧ (after opened .pinReset).link.gate = .open := by
  decide +kernel

theorem test_commandedReset :
    (after (linkOf opened fun l => { l with resetDue := true }) .commandedReset).mode = .inReset .commanded ∧
      (after opened .commandedReset).mode = .running := by decide +kernel

/-- The restart of the state after a power-on reset of a delivered part is `State.reset`, with its queue and its pins (R164). -/
theorem test_restart :
    after (after State.reset .powerOnReset) (.restart 0 0 0) = State.reset := by decide +kernel

/-- A zone that ran comes back RESUME_PENDING, and one whose checkpoint fails its check comes back IDLE (R164). -/
theorem test_restart_checkpoints :
    let s := plantOf (after opened .pinReset) fun p =>
      { p with
        store :=
          { p.store with
            checkpoints := ⟨some { recorded := .held .drying, step := some 0 }, none, some { recorded := .done }, some {}⟩ } }
    let q := (after s (.restart 0 0 0)).plant
    (q.ctx .a).state = .resumePending ∧ (q.ctx .b).state = .idle ∧ (q.ctx .c).state = .done ∧
      .zone .b .checkpointLost ∈ q.alerts ∧ .zone .a .resumeWaiting ∈ q.alerts := by decide +kernel

/-- A millisecond with no command (log entry 4). -/
theorem test_idle_step :
    (match step State.reset with | .next t => (t.plant.ctx .a).minuteTimer | _ => none) = some 59999 := by decide +kernel

/-! ### Witnesses: states and operands that meet the hypotheses of the statements, clause by clause -/

/-- Every zone. -/
theorem every_zone {P : Zone → Prop} (a : P .a) (b : P .b) (c : P .c) (d : P .d) : ∀ z, P z := by
  intro z
  cases z <;> assumption

/-- The loaded part with zones A and B in the group. -/
def groupOf (s : State) : State :=
  configOf s fun c =>
    { c with
      zones :=
        { c.zones with
          a := { c.zones.a with grouped := true, preconditions := ⟨true, false, false⟩ }
          b := { c.zones.b with grouped := true } } }

/-- Zones A and B as members in DRYING. -/
def locked (a b : ZoneUnit) : State :=
  groupOf { withA a with plant := (withA a).plant.put .b b }

/-- A state at its levels. -/
def settled (s : State) : State := { s with plant := s.plant.settlePins }

theorem levelled {s : State} (h : s.plant.settlePins = s.plant) : s.plant.Levelled := (Plant.levelled_iff _).2 h

theorem opened_levelled : opened.plant.Levelled := levelled (by decide +kernel)

theorem opened_ready (k : RequestKind) : opened.Ready k := ready k ⟨rfl, rfl, rfl, rfl⟩

theorem loaded_ready (k : RequestKind) : loaded.Ready k := ready k ⟨rfl, rfl, rfl, rfl⟩

theorem withA_ready (u : ZoneUnit) (k : RequestKind) : (withA u).Ready k := ready k ⟨rfl, rfl, rfl, rfl⟩

theorem ungrouped (u : ZoneUnit) : ((withA u).plant.work.config.zones.get .a).grouped = false := rfl

/-- The gate in another state. -/
def gated (g : Gate) : State := linkOf opened fun l => { l with gate := g }

theorem gated_ready (g : Gate) : (gated g).Ready .un := ⟨rfl, rfl, rfl, fun h => by cases h⟩

theorem witness_StepRunsFrontCommand :
    ({ opened with pending := [.replyEnd, .replyStart] } : State).pending = .replyEnd :: [.replyStart] := rfl

theorem witness_EmptyQueueIsOneMillisecond :
    opened.pending = [] ∧ opened.mode = .running ∧ (after opened .powerLoss).pending = [] ∧
      (after opened .powerLoss).mode ≠ .running := by decide +kernel

theorem witness_ReadRequests :
    (∀ k, opened.Ready k) ∧ (State.reset.mode = .running ∧ State.reset.link.txen = false ∧ State.reset.link.unanswered = none) ∧
      status State.reset (.speciesRead env 7) = some .ok ∧ status State.reset (.speciesRead env 8) = some .badValue ∧
      (∀ x ∈ [(0, 0), (1, 3), (2, 0), (3, 0), (4, 3), (5, 0), (6, 15)],
        status opened (.configurationRead env x.1 x.2) = some .ok) ∧
      (∀ x ∈ [(7, 0), (1, 4), (4, 4), (6, 16)],
        status opened (.configurationRead env x.1 x.2) = some .badValue) ∧
      status opened (.entryTableRead env 3) = some .ok ∧ status opened (.entryTableRead env 4) = some .badValue ∧
      status opened (.runRecordRead env 3 47) = some .ok ∧ status opened (.runRecordRead env 4 47) = some .badValue ∧
      status opened (.delayedStartQuery env) = some .ok :=
  ⟨opened_ready, by decide +kernel⟩

theorem witness_ZoneReads :
    opened.Ready .zr ∧ Zone.d.code = 3 ∧ status opened (.zoneRead env 3) = some .ok ∧
      status opened (.zoneRead env 4) = some .badValue :=
  ⟨opened_ready _, by decide +kernel⟩

theorem witness_LinkRequests :
    (∀ g, (gated g).Ready .un) ∧ (∀ k, opened.Ready k) ∧ opened.plant.Levelled ∧
      (List.replicate 8 (0 : Byte)).length = 8 ∧ List.replicate 8 0 = (gated .locked).plant.work.code ∧
      List.replicate 8 1 ≠ (gated .locked).plant.work.code ∧
      status opened (.acknowledgeAlerts env [(3, 11), (4, 3)]) = some .ok ∧
      (∀ x ∈ [(3, 12), (4, 4), (5, 0)], status opened (.acknowledgeAlerts env [x]) = some .badValue) :=
  ⟨gated_ready, opened_ready, opened_levelled, by decide +kernel⟩

theorem witness_GateRule :
    (Instr.writeRecord env none).envelope = some env ∧ (Instr.writeRecord env none).kind = some .sw ∧
      (gated .locked).link.gate ≠ .open ∧ (gated .barred).link.gate ≠ .open ∧ (gated .locked).mode = .running ∧
      (gated .locked).link.txen = false ∧ (gated .locked).link.unanswered = none ∧
      (Instr.setCursor env 0).kind = some .sc ∧ (Instr.unlock env []).kind = some .un ∧
      status (gated .barred) (.unlock env []) = some .denied ∧ status (gated .barred) (.setCursor env 0) = some .ok := by
  decide +kernel

theorem witness_CursorRule :
    State.reset.mode = .running ∧ State.reset.link.txen = false ∧ State.reset.link.unanswered = none ∧
      State.reset.plant.Levelled ∧ (after opened .pinReset).mode = .inReset .pin ∧
      status State.reset (.setCursor env 127) = some .ok ∧ status State.reset (.setCursor env 128) = some .badValue ∧
      (after (plantOf opened fun p => { p with cursor := 126 }) (.readRecord env)).plant.cursor = 127 :=
  ⟨rfl, rfl, rfl, levelled (by decide +kernel), by decide +kernel⟩

/-- Zone A in DRYING over records 0 and 1, with the cursor at 0. -/
def guarding : State := settled (withA drying)

theorem guarding_levelled : guarding.plant.Levelled := levelled (by decide +kernel)

theorem witness_WriteRecordRule :
    guarding.Ready .sw ∧ guarding.plant.Levelled ∧ opened.plant.Levelled ∧
      (⟨1, 500, 400, 200, 999, 1, 60000, 60000, 720⟩ : RawStep).Consistent ∧
      ¬(⟨1, 500, 401, 200, 999, 1, 60000, 60000, 720⟩ : RawStep).Consistent ∧
      ((guarding.plant.ctx .a).state.guards = true ∧ guarding.plant.cursor ∈ guarding.plant.extent .a .drying) ∧
      guarding.plant.work.records.get guarding.plant.cursor = some first ∧ first.last = false ∧
      status guarding (.writeRecord env none) = some .wrongState ∧
      status guarding (.writeRecord env (some ⟨0, 500, 400, 200, 999, 1, 60000, 60000, 720⟩)) = some .wrongState ∧
      status guarding (.writeRecord env (some ⟨1, 500, 400, 200, 999, 1, 60000, 60000, 720⟩)) = some .ok ∧
      status opened (.writeRecord env none) = some .ok := by
  refine ⟨ready _ ⟨rfl, rfl, rfl, rfl⟩, guarding_levelled, opened_levelled,
    ⟨by decide, by decide, by decide, by decide, by decide, by decide, by decide, by decide⟩, fun h => ?_, ?_⟩
  · exact absurd h.depression.2.1 (by decide)
  · decide +kernel

theorem witness_WalkAndValidationRule :
    (loaded.plant.work.entries.get .a).get .warmup = none ∧ (loaded.plant.work.entries.get .a).get .drying = some 0 ∧
      (walk loaded.plant.work.records 0).2 = .marker ∧ (walk loaded.plant.work.records 3).2 = .blank 3 ∧
      (walk (Table.fill 128 (some first)) 96).2 = .noMarker 127 ∧ (walk (Table.fill 128 (some first)) 95).2 = .noMarker 126 ∧
      opened.plant.validate .a = some ⟨.drying, .noEntry, none⟩ ∧ loaded.plant.validate .a = none := by decide +kernel

/-- `WalkAndValidationRule`'s clauses for a resumption (R67): a blank step, a finding, a step outside, and nothing. -/
theorem witness_WalkAndValidationRule_resumption :
    let k (i : Fin 128) : Checkpoint := { recorded := .phase .drying, step := some i }
    let bare := plantOf loaded fun p => { p with work := { p.work with entries := .all {} } }
    loaded.plant.work.records.get 9 = none ∧ (loaded.plant.work.records.get 2).isSome = true ∧
      loaded.plant.validateResume .a (k 9) = some ⟨.drying, .blankRecord, some 9⟩ ∧
      bare.plant.validateResume .a (k 9) = some ⟨.drying, .blankRecord, some 9⟩ ∧
      bare.plant.validateResume .a (k 1) = some ⟨.drying, .noEntry, none⟩ ∧
      (2 ∉ loaded.plant.extent .a .drying ∧ loaded.plant.validateResume .a (k 2) = some ⟨.drying, .stepOutside, some 2⟩) ∧
      (1 ∈ loaded.plant.extent .a .drying ∧ loaded.plant.validateResume .a (k 1) = none) := by decide +kernel

theorem witness_EntryTableWriteRule :
    opened.Ready .ew ∧ opened.plant.Levelled ∧ guarding.Ready .ew ∧ guarding.plant.Levelled ∧
      (guarding.plant.ctx .a).state.guards = true ∧ (opened.plant.ctx .a).state ∈ [ZoneState.idle, .done, .resumePending] ∧
      status opened (.entryTableWrite env 4 ⟨⟨0, 0⟩, ⟨0, 0⟩, ⟨0, 0⟩, ⟨0, 0⟩, ⟨0, 0⟩⟩) = some .badValue ∧
      status opened (.entryTableWrite env 3 ⟨⟨0, 0⟩, ⟨1, 127⟩, ⟨0, 0⟩, ⟨0, 0⟩, ⟨0, 0⟩⟩) = some .ok ∧
      (∀ o ∈ [(⟨2, 0⟩ : RawOption), ⟨1, 128⟩],
        let x : RawOption := ⟨0, 0⟩
        ∀ bad ∈ [(⟨o, x, x, x, x⟩ : RawEntries), ⟨x, o, x, x, x⟩, ⟨x, x, o, x, x⟩, ⟨x, x, x, o, x⟩, ⟨x, x, x, x, o⟩],
          status opened (.entryTableWrite env 3 bad) = some .badValue) :=
  ⟨opened_ready _, opened_levelled, ready _ ⟨rfl, rfl, rfl, rfl⟩, guarding_levelled, by decide +kernel⟩

theorem witness_SpeciesWriteRule :
    opened.Ready .gw ∧ opened.plant.Levelled ∧ (List.replicate 9 999).length = 9 ∧
      status opened (.speciesWrite env 7 500 (List.replicate 9 999)) = some .ok ∧
      status opened (.speciesWrite env 8 500 (List.replicate 9 999)) = some .badValue ∧
      status opened (.speciesWrite env 7 501 (List.replicate 9 999)) = some .badValue ∧
      status opened (.speciesWrite env 7 500 (List.replicate 9 1000)) = some .badValue ∧
      status opened (.speciesWrite env 7 500 [1, 1, 1, 1, 1, 1, 1, 1, 2]) = some .badValue ∧
      (opened.plant.work.probes.get 0).kind = .moisture ∧ (opened.plant.work.probes.get 0).group = 0 :=
  ⟨opened_ready _, opened_levelled, by decide +kernel⟩

theorem witness_ProbeTableRule :
    opened.Ready .pw ∧ opened.Ready .px ∧ opened.Ready .pi ∧ opened.plant.Levelled ∧ guarding.Ready .pw ∧
      guarding.plant.Levelled ∧
      (∀ r ∈ [(⟨⟨2, 0⟩, 0, 0, 0, 0, ⟨0, 0⟩⟩ : RawProbe), ⟨⟨1, 4⟩, 0, 0, 0, 0, ⟨0, 0⟩⟩, ⟨⟨0, 0⟩, 2, 0, 0, 0, ⟨0, 0⟩⟩,
          ⟨⟨0, 0⟩, 0, 4, 0, 0, ⟨0, 0⟩⟩, ⟨⟨0, 0⟩, 0, 0, 64, 0, ⟨0, 0⟩⟩, ⟨⟨0, 0⟩, 0, 0, 0, 8, ⟨0, 0⟩⟩,
          ⟨⟨0, 0⟩, 0, 0, 0, 0, ⟨2, 0⟩⟩, ⟨⟨0, 0⟩, 0, 0, 0, 0, ⟨1, 64⟩⟩, ⟨⟨1, 3⟩, 0, 2, 0, 0, ⟨0, 0⟩⟩,
          ⟨⟨0, 0⟩, 0, 0, 0, 0, ⟨1, 63⟩⟩],
        status opened (.probeWrite env 63 r) = some .badValue) ∧
      status opened (.probeWrite env 64 ⟨⟨0, 0⟩, 0, 0, 0, 0, ⟨0, 0⟩⟩) = some .badValue ∧
      status guarding (.probeWrite env 63 ⟨⟨1, 0⟩, 0, 0, 0, 0, ⟨0, 0⟩⟩) = some .wrongState ∧
      status (probeAt opened 1 (moist 0) {}) (.probeWrite env 63 ⟨⟨1, 0⟩, 0, 0, 0, 0, ⟨0, 0⟩⟩) = some .conflict ∧
      status opened (.probeWrite env 63 ⟨⟨1, 3⟩, 1, 1, 63, 7, ⟨0, 0⟩⟩) = some .ok ∧
      (∀ c ∈ [Instr.excludeProbe env, Instr.reinstateProbe env],
        status opened (c 64) = some .badValue ∧ status opened (c 63) = some .wrongState ∧
          status (probeAt opened 63 (moist 0) { state := .unreachable }) (c 63) = some .wrongState ∧
          status (probeAt opened 63 (moist 0) { state := .excluded }) (c 63) = some .ok) ∧
      status (probeAt opened 63 (moist 0) { state := .failed }) (.reinstateProbe env 63) = some .ok ∧
      status (probeAt opened 63 (moist 0) {}) (.excludeProbe env 63) = some .ok :=
  ⟨opened_ready _, opened_ready _, opened_ready _, opened_levelled, ready _ ⟨rfl, rfl, rfl, rfl⟩, guarding_levelled,
    by decide +kernel⟩

/-- A part whose front end measures P9 for zone A's pass. -/
def busy : State := inFlight opened (measuring 9 (.zone .a) .moisture false)

theorem witness_SpotRequestRule :
    opened.Ready .sp ∧ opened.plant.Levelled ∧ busy.Ready .sp ∧ busy.plant.Levelled ∧
      status opened (.spotRequest env 64) = some .badValue ∧
      status (plantOf opened fun p => { p with straps := ⟨0, 0, 2⟩, work := { p.work with probes := .fill 64 { position := 16 } } })
          (.spotRequest env 63) = some .badValue ∧
      status (configOf opened fun c => { c with scan := { spotEnabled := false } }) (.spotRequest env 63) =
        some .wrongState ∧
      status (plantOf opened fun p => { p with spot := .waiting 1 }) (.spotRequest env 63) = some .slotBusy ∧
      busy.plant.spot = .empty ∧ busy.plant.frontEnd.inFlight.isSome = true ∧
      (after busy (.spotRequest env 63)).plant.spot = .waiting 63 ∧ opened.plant.spot = .empty ∧
      opened.plant.frontEnd.inFlight = none ∧ (opened.plant.unit .a).pass.progress = none ∧
      (after opened (.spotRequest env 63)).plant.spot = .measuring 63 :=
  ⟨opened_ready _, opened_levelled, ready _ ⟨rfl, rfl, rfl, rfl⟩, levelled (by decide +kernel), by decide +kernel⟩

/-- `SpotRequestRule`'s clauses for the straps, and for a grant with a pass in progress: the arbiter's pointer decides. -/
theorem witness_SpotRequestRule_grant :
    let s (pointer : Requester) : State :=
      plantOf (probeAt opened 9 (moist 9) (valid 100)) fun p =>
        { p.put .a { p.unit .a with pass := { (p.unit .a).pass with progress := some ⟨[9], [9]⟩ } } with
          arbiter := { pointer := pointer, turn := .favoured } }
    let t (pointer : Requester) := (after (s pointer) (.spotRequest env 63)).plant
    ([0, 1, 2, 3].map fun x : Fin 4 =>
        let straps : Straps := { opened.plant.straps with mxs := x }
        (straps.addressLines, straps.banks)) = [(6, 2), (5, 3), (4, 4), (4, 4)] ∧
      (let straps : Straps := { opened.plant.straps with mxs := 1 }
       straps.addressExists 2 31 = true ∧ straps.addressExists 3 31 = false ∧ straps.addressExists 2 32 = false) ∧
      (∀ r, (s r).mode = .running ∧ (s r).plant.spot = .empty ∧ (s r).plant.frontEnd.inFlight = none) ∧
      ((t .spot).frontEnd.inFlight.map (·.entry) = some 9 ∧ (t .spot).spot = .waiting 63 ∧
        (t .spot).arbiter.pointer = .zone .a) ∧
      ((t (.zone .a)).frontEnd.inFlight.map (·.entry) = some 63 ∧ (t (.zone .a)).spot = .measuring 63 ∧
        (t (.zone .a)).arbiter.pointer = .spot) := by
  refine ⟨by decide +kernel, by decide +kernel, fun _ => ⟨rfl, rfl, rfl⟩, by decide +kernel, by decide +kernel⟩

theorem witness_SpotResultRule :
    let slot (x : SpotSlot) := plantOf opened fun p => { p with spot := x }
    (slot .empty).Ready .sr ∧ (slot .empty).plant.Levelled ∧ (slot (.waiting 63)).plant.Levelled ∧
      (slot (.measuring 63)).plant.Levelled ∧ (slot (.done ⟨63, .moisture, 452, .inRange, none⟩)).plant.Levelled ∧
      (slot (.done ⟨63, .moisture, 452, .inRange, none⟩)).plant.spot = .done ⟨63, .moisture, 452, .inRange, none⟩ :=
  by refine ⟨ready _ ⟨rfl, rfl, rfl, rfl⟩, ?_, ?_, ?_, ?_, rfl⟩ <;> exact levelled (by decide +kernel)

theorem witness_SmallItemWrites :
    opened.Ready .cw ∧ opened.plant.Levelled ∧ status opened (.cwGroup env 2 0) = some .badValue ∧
      status opened (.cwGroup env 1 1440) = some .ok ∧ status opened (.cwGroup env 1 1441) = some .clamped ∧
      (∀ x ∈ [(2, 0, 0), (0, 4, 0), (0, 0, 2)], status opened (.cwScan env x.1 x.2.1 x.2.2) = some .badValue) ∧
      status (plantOf opened fun p => { p with spot := .waiting 1 }) (.cwScan env 1 3 1) = some .wrongState ∧
      opened.plant.spot = .empty ∧ status opened (.cwScan env 1 3 1) = some .ok ∧
      (∀ c ∈ [Instr.cwWindow env 4 ⟨0, 0, 0, 10, 1, 0⟩, .cwWindow env 3 ⟨0, 0, 0, 10, 3, 0⟩,
          .cwWindow env 3 ⟨0, 0, 0, 10, 1, 2⟩, .cwDefault env 10 0],
        status opened c = some .badValue) ∧
      status opened (.cwWindow env 3 ⟨3, 63, 64, 2000, 16, 1⟩) = some .ok ∧
      (∀ r ∈ [(⟨4, 0, 0, 10, 1, 0⟩ : RawWindow), ⟨0, 64, 0, 10, 1, 0⟩, ⟨0, 0, 65, 10, 1, 0⟩, ⟨0, 0, 0, 9, 1, 0⟩,
          ⟨0, 0, 0, 2001, 1, 0⟩],
        status opened (.cwWindow env 3 r) = some .clamped) ∧
      status opened (.cwDefault env 2000 16) = some .ok ∧ status opened (.cwDefault env 2001 16) = some .clamped ∧
      status opened (.cwDefault env 9 16) = some .clamped :=
  ⟨opened_ready _, opened_levelled, by decide +kernel⟩

theorem ramping_away : ramping.climate.Away := ⟨500, 460, rfl, rfl, by decide⟩

theorem drying_near : ¬drying.climate.Away := by
  rintro ⟨d, w, h1, h2, h3⟩
  cases h1
  cases h2
  revert h3
  decide

theorem witness_KilnWriteRule :
    let pending : ZoneUnit :=
      climateOf (ctxOf ramping fun c => { c with holdPending := true, holds := ⟨true, false⟩ }) fun c =>
        { c with dbTarget := 29000, wbTarget := 21600 }
    (∀ u, (withA u).Ready .cw) ∧ ((withA ramping).plant.unit .a).climate.Away ∧
      ¬((withA drying).plant.unit .a).climate.Away ∧ pending.climate.Away ∧ ¬(⟨900, 30, 2, 1, 30, 10⟩ : RawKiln).Defined ∧
      (⟨400, 10, 1, 1, 1, 1⟩ : RawKiln).Defined ∧ (⟨400, 10, 1, 1, 1, 1⟩ : RawKiln).InRange ∧
      ¬(⟨399, 10, 1, 1, 1, 1⟩ : RawKiln).InRange ∧
      ((⟨400, 10, 1, 1, 1, 1⟩ : RawKiln).item.maximumDb ≠ (withA ramping).plant.kiln.maximumDb ∧
        (⟨900, 10, 1, 1, 1, 1⟩ : RawKiln).item.maximumDb = (withA ramping).plant.kiln.maximumDb ∧
        ((withA safe).plant.ctx .a).state = .safe ∧
        (⟨900, 10, 1, 0, 1, 1⟩ : RawKiln).item.safeFan ≠ (withA safe).plant.kiln.safeFan ∧
        ((after (withA pending) (.cwKiln env ⟨400, 10, 1, 1, 1, 1⟩)).plant.ctx .a).state = .held ∧
        ((after (withA pending) (.cwKiln env ⟨900, 10, 1, 1, 1, 1⟩)).plant.ctx .a).holdPending = true) ∧
      -- a change of the safe fan in SAFE, by what the fan does
      (let running : ZoneUnit := outputOf safe fun o => { o with fan := ⟨.runRev, .reverse, 60, 120, none⟩ }
       let run (s : State) : State := configOf s fun c => { c with kiln := { c.kiln with safeFan := .run } }
       let t (s : State) (f : Nat) := ((after s (.cwKiln env ⟨900, 10, 1, f, 1, 1⟩)).plant.unit .a).output.fan
       t (run (withA running)) 1 = ⟨.stopped, .reverse, 60, 120, none⟩ ∧ t (withA running) 0 = running.output.fan ∧
         (t (withA safe) 0).machine = .runFwd) := by
  intro pending
  refine ⟨fun u => withA_ready u _, ramping_away, drying_near, ⟨500, 460, rfl, rfl, by decide⟩, ?_⟩
  unfold RawKiln.Defined RawKiln.InRange
  decide +kernel

theorem witness_ZoneItemsWriteRule :
    let r : RawZone := ⟨60, 8, 16, 100, 15, 200, 200, 600, 120, 300, 100, 100, 7, 7, 1, 1⟩
    (withA drying).Ready .cw ∧ r.Defined ∧ r.InRange ∧ ¬({ r with startMask := 8 } : RawZone).Defined ∧
      ¬({ r with k := 9 } : RawZone).InRange ∧ r.item.grouped = ((withA drying).plant.work.config.zones.get .a).grouped ∧
      ({ r with grouped := 0 } : RawZone).item.grouped ≠ ((withA drying).plant.work.config.zones.get .a).grouped ∧
      ((withA drying).plant.ctx .a).state ≠ .idle ∧ ((withA drying).plant.ctx .a).state ≠ .done ∧
      ((withA drying).plant.ctx .a).state ≠ .starting ∧
      status (withA drying) (.cwZone env 0 { r with grouped := 0 }) = some .wrongState ∧
      status (withA drying) (.cwZone env 3 r) = some .ok ∧ status (withA drying) (.cwZone env 4 r) = some .badValue := by
  refine ⟨withA_ready _ _, ?_, ?_, ?_, ?_, ?_⟩ <;>
    first
    | decide +kernel
    | (unfold RawZone.Defined; decide)
    | (unfold RawZone.InRange; decide)

theorem witness_LineItemsWriteRule :
    let c (role : LineRole) (n : Nat) : LineConfig := { role := role, debounce := n }
    -- an ACTIVE level of a door leaves, and one is taken at once with debounce code 0
    let open' : State := lineOf opened (c .door 3) fun l => { l with external := true, debounced := true, settled := true }
    opened.Ready .cw ∧ (∀ z, (open'.plant.ctx z).state.guards = false) ∧
      (c .none 7).debounce = min 7 9 ∧ (c .none 0).debounce = min 7 0 ∧
      (opened.plant.work.config.lines.get 0).role = .none ∧ (opened.plant.work.config.lines.get 0).debounce = 3 ∧
      (opened.plant.lines.get 0).debounced = false ∧ ((withA drying).plant.ctx .a).state.guards = true ∧
      status opened (.cwLine env 16 ((c .none 3).raw 3)) = some .badValue ∧
      status opened (.cwLine env 15 ⟨8, 0, 0, 0, 0, 0⟩) = some .badValue ∧
      status (withA drying) (.cwLine env 15 ((c .door 3).raw 3)) = some .wrongState ∧
      status (withA drying) (.cwLine env 15 ((c .none 3).raw 3)) = some .ok ∧
      status opened (.cwLine env 15 ((c .alarmOut 7).raw 9)) = some .clamped ∧
      ((after opened (.cwLine env 15 ((c .generalIn 1).raw 1))).plant.lines.get 15).timer = some 10 ∧
      ((after opened (.cwLine env 15 ((c .generalIn 0).raw 0))).plant.lines.get 15).settled = true ∧
      (open'.plant.lines.get 0).debounced = true ∧
      ((after open' (.cwLine env 0 ((c .none 3).raw 3))).plant.lines.get 0).debounced = false ∧
      (∀ role ∈ [LineRole.door, .fanProof, .holdIn, .startButton],
        ((after open' (.cwLine env 0 ((c role 0).raw 0))).plant.lines.get 0).debounced = true) := by
  intro c open'
  refine ⟨opened_ready _, fun z => ?_, ?_⟩
  · cases z <;> decide +kernel
  · decide +kernel

/-- A zone in IDLE with two good sensors, and the same one in STARTING or RESUME_PENDING. -/
def warm : ZoneUnit :=
  climateOf rest fun c =>
    { c with db := { status := .good, value := some 200 }, wb := { status := .good, value := some 150 } }

/-- The loaded part with zone A so, and the door as its only masked precondition. -/
def warmed : State := itemsOf (withA warm) fun c => { c with preconditions := ⟨true, false, false⟩ }

theorem warmed_ready (k : RequestKind) : warmed.Ready k := ready k ⟨rfl, rfl, rfl, rfl⟩

/-- The conditions of R81 as `StartZoneRule` states them. -/
theorem warm_met :
    let p := warmed.plant
    ((p.work.config.zones.get .a).preconditions.door = true → p.doorOpen = false) ∧
      ((p.work.config.zones.get .a).preconditions.fan = true → p.proof .a = true) ∧
      ((p.work.config.zones.get .a).preconditions.probes = true →
        (p.work.config.zones.get .a).nmin ≤ warm.aggregate.count) ∧
      warm.climate.db.status = .good ∧ warm.climate.wb.status = .good ∧
      ∃ x, warm.climate.db.value = some x ∧ x ≤ p.kiln.maximumDb + p.kiln.overtempMargin :=
  ⟨fun _ => by decide +kernel, fun h => (by cases h), fun h => (by cases h), rfl, rfl, 200, rfl, by decide +kernel⟩

/-- The same zone in STARTING. -/
def beginning : State :=
  itemsOf (withA (ctxOf warm fun c => { c with state := .starting, startTimeout := some 60000 })) fun c =>
    { c with preconditions := ⟨true, false, false⟩ }

/-- The same with the door open and nothing checked but the climate. -/
def beginningOpen : State :=
  lineOf (itemsOf beginning fun c => { c with preconditions := ⟨false, false, false⟩ }) { role := .door } fun l =>
    { l with debounced := true, settled := true, timer := none }

theorem loaded_first : loaded.plant.FirstEntry .a .drying 0 first := by
  refine ⟨fun y h => ?_, rfl, by decide +kernel⟩
  cases y <;> first | rfl | exact absurd h (by decide)

theorem beginning_meets : beginning.plant.Meets .a ∧ beginningOpen.plant.Meets .a := by
  constructor <;>
    exact ⟨fun h => by first | cases h; done | decide +kernel, fun h => (by cases h), fun h => (by cases h), rfl, rfl, 200, rfl,
      by decide +kernel⟩

/-- A member that waits in STARTING for B, and the two ready together. -/
def joining (ready : Bool) : State :=
  itemsOf { beginning with plant := beginning.plant.put .b (ctxOf starting fun c => { c with ready := ready }) } fun c =>
    { c with grouped := true }

/-- Zones A and B of it in the group. -/
def joined (ready : Bool) : State :=
  configOf (joining ready) fun c => { c with zones := { c.zones with b := { c.zones.b with grouped := true } } }

/-- `StartJudged`'s clause for a member, and `GroupJudged`: the group waits, enters, or stops its timeout. -/
theorem witness_GroupJudged :
    (∀ ready, (joined ready).plant.Standing .a ∧ (joined ready).plant.Standing .b ∧ (joined ready).plant.Meets .a) ∧
      (∀ y, ¬loaded.plant.Standing y) ∧ ((joined false).plant.ctx .b).ready = false ∧
      ((joined true).plant.ctx .b).ready = true ∧
      (let t (ready : Bool) := (after (joined ready) (.climateSampleComplete .a 200 150)).plant
       ((t false).ctx .a).state = .starting ∧ ((t false).ctx .a).ready = true ∧
         ((t true).ctx .a).state = .phase .drying ∧ ((t true).ctx .b).state = .phase .drying) :=
  ⟨fun _ => ⟨⟨rfl, rfl⟩, ⟨rfl, rfl⟩, beginning_meets.1⟩, fun y h => (by cases y <;> cases h.1), by decide +kernel⟩

/-- `StartJudged`, clause by clause: the zone waits, enters its first phase, or enters it and SAFE. -/
theorem witness_StartJudged :
    ¬(withA starting).plant.Meets .a ∧ (beginning.plant.Meets .a ∧ beginningOpen.plant.Meets .a) ∧
      (beginning.plant.FirstEntry .a .drying 0 first ∧ beginningOpen.plant.FirstEntry .a .drying 0 first) ∧
      ((beginning.plant.work.config.zones.get .a).grouped = false ∧ (beginning.plant.ctx .a).state = .starting ∧
        beginning.plant.holdIn = false ∧ beginning.plant.doorOpen = false ∧
        (beginning.plant.unit .a).proofOverdue = false ∧ (beginning.plant.unit .a).causes.any = false ∧
        beginningOpen.plant.doorOpen = true ∧ (beginningOpen.plant.unit .a).causes.any = false) :=
  ⟨fun h => absurd h.2.2.2.1 (by decide +kernel), beginning_meets, ⟨loaded_first, loaded_first⟩, by decide +kernel⟩

/-- O18's clause for a zone in STARTING. -/
theorem witness_ZoneItemsWriteRule_starting :
    let r : RawZone := ⟨15, 3, 2, 20, 3, 30, 20, 60, 20, 30, 20, 20, 1, 1, 1, 1⟩
    beginning.Ready .cw ∧ (beginning.plant.ctx .a).state = .starting ∧ r.Defined ∧ r.item.grouped = false ∧
      (beginning.plant.work.config.zones.get .a).grouped = false ∧
      ((after beginning (.cwZone env 0 r)).plant.ctx .a).state = .phase .drying ∧
      ((after (withA starting) (.cwZone env 0 r)).plant.ctx .a).state = .starting ∧
      ((after beginningOpen (.cwZone env 0 { r with preconditionMask := 0 })).plant.ctx .a).state = .safe :=
  ⟨ready _ ⟨rfl, rfl, rfl, rfl⟩, rfl, by unfold RawZone.Defined; decide, by decide +kernel⟩

theorem witness_StartZoneRule :
    (∀ u, (withA u).Ready .go) ∧ warmed.Ready .go ∧ opened.Ready .go ∧
      (∀ y : Phase, y.code < Phase.drying.code → (warmed.plant.work.entries.get .a).get y = none) ∧
      opened.plant.fieldEnabled = false ∧ ((withA drying).plant.ctx .a).state ≠ .idle ∧
      status loaded (.startZone env 4) = some .badValue ∧ status opened (.startZone env 3) = some .wrongState ∧
      (plantOf opened fun p => { p with fieldEnabled := true }).plant.validate .a = some ⟨.drying, .noEntry, none⟩ ∧
      (let p := warmed.plant
       p.fieldEnabled = true ∧ (p.items .a).startMask.host = true ∧ (p.ctx .a).state = .idle ∧ p.validate .a = none ∧
         (p.items .a).grouped = false ∧ p.doorOpen = false ∧ p.holdIn = false ∧ warm.proofOverdue = false ∧
         warm.causes.any = false ∧ (p.work.entries.get .a).get .drying = some 0 ∧ p.work.records.get 0 = some first) ∧
      rest.climate.db.status ≠ .good ∧
      ((after warmed (.startZone env 0)).plant.ctx .a).state = .phase .drying ∧
      ((after (withA rest) (.startZone env 0)).plant.ctx .a).state = .starting :=
  ⟨fun u => withA_ready u _, warmed_ready _, opened_ready _, loaded_first.1, by decide +kernel⟩

theorem witness_HoldRule :
    let apart : State := configOf (locked drying held) fun c => { c with group := { c.group with holdTogether := false } }
    (∀ u, (withA u).Ready .hd ∧ ((withA u).plant.work.config.zones.get .a).grouped = false) ∧ apart.Ready .hd ∧
      ramping.climate.Away ∧ ¬drying.climate.Away ∧
      (∀ y, (loaded.plant.ctx y).state ≠ .held ∧ (loaded.plant.ctx y).state.phase? = none) ∧
      (∀ y, y ≠ Zone.a → ((withA held).plant.ctx y).state ≠ .held ∧ ((withA held).plant.ctx y).state.phase? = none) ∧
      apart.plant.work.config.group.holdTogether = false ∧ (apart.plant.work.config.zones.get .a).grouped = true ∧
      ((after apart (.hold env 0)).plant.ctx .a).state = .held ∧
      status loaded (.hold env 5) = some .badValue ∧ rest.ctx.state = .idle ∧ held.ctx.state = .held ∧
      drying.ctx.state = .phase .drying ∧ (ctxOf drying fun c => { c with holds := ⟨false, true⟩ }).ctx.holds.any = true ∧
      drying.ctx.holds.any = false ∧ ramping.ctx.state = .phase .drying ∧ ramping.ctx.holds.any = false := by
  refine ⟨fun u => ⟨withA_ready u _, ungrouped u⟩, ready _ ⟨rfl, rfl, rfl, rfl⟩, ramping_away, drying_near, fun y => ?_,
    fun y h => ?_, by decide +kernel⟩
  · cases y <;> decide +kernel
  · revert h
    cases y <;> decide +kernel

/-- Zone A in DRYING, B on its way to its targets, C in HELD by LINE, and D in IDLE. -/
def mixed : State :=
  { withA drying with
    plant :=
      ((withA drying).plant.put .b ramping).put .c (ctxOf held fun c => { c with holds := ⟨false, true⟩ }) }

/-- `HoldRule`'s clause for ALL with three running zones. -/
theorem witness_HoldRule_all :
    let p := mixed.plant
    let hosted (z : Zone) : ZoneUnit :=
      { p.unit z with ctx := { p.ctx z with holds := { host := true, line := (p.ctx z).holds.line } } }
    let pending (z : Zone) : ZoneUnit :=
      { hosted z with
        ctx := { (hosted z).ctx with holdPending := true, eligible := none, waiting := false, waitCount := 0 } }
    let enters (z : Zone) (ph : Phase) :=
      (p.ctx z).state = .phase ph ∧ (p.ctx z).holds.any = false ∧ ¬(p.unit z).climate.Away
    let unit (z : Zone) : ZoneUnit :=
      match z with
      | .a => (hosted .a).heldOver .drying
      | .b => pending .b
      | .c => hosted .c
      | .d => p.unit .d
    mixed.Ready .hd ∧
      (∀ z,
        (decide (z = .a) = true ↔ ∃ ph, enters z ph) ∧
        ((p.ctx z).state ≠ .held → (p.ctx z).state.phase? = none → unit z = p.unit z) ∧
        ((p.ctx z).state = .held → unit z = hosted z) ∧
        (∀ ph, (p.ctx z).state = .phase ph →
          ((p.ctx z).holds.any = true → unit z = hosted z) ∧
          ((p.ctx z).holds.any = false → (p.unit z).climate.Away → unit z = pending z) ∧
          (enters z ph → unit z = (hosted z).heldOver ph))) ∧
      ((after mixed (.hold env 4)).plant.ctx .a).state = .held ∧
      ((after mixed (.hold env 4)).plant.ctx .b).holdPending = true ∧
      ((after mixed (.hold env 4)).plant.ctx .c).holds = ⟨true, true⟩ := by
  intro p hosted pending enters unit
  refine ⟨ready _ ⟨rfl, rfl, rfl, rfl⟩, every_zone ?_ ?_ ?_ ?_, by decide +kernel⟩
  · refine ⟨⟨fun _ => ⟨.drying, rfl, rfl, drying_near⟩, fun _ => rfl⟩, fun _ h => (by cases h), fun h => (by cases h),
      fun ph h => ?_⟩
    cases h
    exact ⟨fun h => (by cases h), fun _ h => absurd h drying_near, fun _ => rfl⟩
  · refine ⟨⟨fun h => (by cases h), fun ⟨_, _, _, h⟩ => absurd ramping_away h⟩, fun _ h => (by cases h), fun h => (by cases h),
      fun ph h => ?_⟩
    cases h
    exact ⟨fun h => (by cases h), fun _ _ => rfl, fun h => absurd ramping_away h.2.2⟩
  · exact ⟨⟨fun h => (by cases h), fun ⟨_, h, _⟩ => (by cases h)⟩, fun h => absurd rfl h, fun _ => rfl, fun _ h => (by cases h)⟩
  · exact ⟨⟨fun h => (by cases h), fun ⟨_, h, _⟩ => (by cases h)⟩, fun _ _ => rfl, fun h => (by cases h), fun _ h => (by cases h)⟩

theorem witness_ResumeRule :
    (∀ u, (withA u).Ready .rm ∧ ((withA u).plant.work.config.zones.get .a).grouped = false) ∧
      (∀ line, let u := ctxOf ramping fun c => { c with holdPending := true, holds := ⟨true, line⟩ }
        u.ctx.state.inPhase = true ∧ u.ctx.holdPending = true ∧ u.ctx.holds.line = line) ∧
      loaded.plant.fieldEnabled = true ∧ opened.plant.fieldEnabled = false ∧
      status (withA held) (.resume env 4) = some .badValue ∧ rest.ctx.state ∈ [ZoneState.idle, .starting, .safe, .done] ∧
      (let u := ctxOf rest fun c => { c with state := .resumePending, resumeFrom := some { recorded := .phase .drying, step := some 9 } }
       u.ctx.state = .resumePending ∧
         (withA u).plant.validateResume .a (u.ctx.resumeFrom.getD {}) = some ⟨.drying, .blankRecord, some 9⟩) ∧
      (ctxOf held fun c => { c with holds := ⟨true, true⟩ }).ctx.holds.line = true ∧ held.ctx.holds.line = false ∧
      held.ctx.state = .held ∧ held.ctx.underlying = some .drying ∧ held.climate.dbSetpoint = some 500 ∧
      held.climate.wbSetpoint = some 460 ∧ drying.ctx.state = .phase .drying ∧ drying.ctx.holdPending = false :=
  ⟨fun u => ⟨withA_ready u _, ungrouped u⟩, fun _ => ⟨rfl, rfl, rfl⟩, by decide +kernel⟩

/-- A zone in RESUME_PENDING with a checkpoint, before any climate sample. -/
def waitingFor (k : Checkpoint) : ZoneUnit := ctxOf rest fun c => { c with state := .resumePending, resumeFrom := some k }

theorem witness_ResumptionRule :
    (∀ r ∈ [RecordedState.held .drying, .phase .drying],
      let k : Checkpoint := { recorded := r, step := some 1, stepClock := 3, runClock := 200, detached := true, direction := .reverse }
      let s := withA (waitingFor k)
      s.plant.fieldEnabled = true ∧ (s.plant.ctx .a).state = .resumePending ∧ (s.plant.ctx .a).resumeFrom = some k ∧
        s.plant.validateResume .a k = none ∧ k.step = some 1 ∧ s.plant.work.records.get 1 = some second ∧
        s.plant.doorOpen = false ∧ s.plant.holdIn = false ∧ (s.plant.unit .a).causes.any = false ∧
        (s.plant.unit .a).proofOverdue = false ∧ (s.plant.unit .a).climate.db.status = .unsampled ∧
        (s.plant.unit .a).climate.wb.status = .unsampled ∧ k.hostHold = false ∧ k.stepClock < second.minTime ∧
        k.stepClock < second.maxTime ∧ status s (.resume env 0) = some .ok) ∧
      (∀ u, (withA u).Ready .rm) :=
  ⟨by decide +kernel, fun u => withA_ready u _⟩

/-- `ResumptionRule`'s clause for a recorded phase state with HOST: hold-pending on the way to the targets, HELD at them. -/
theorem witness_ResumptionRule_host :
    let k (ph : Phase) (i : Fin 128) : Checkpoint := { recorded := .phase ph, step := some i, hostHold := true }
    let ramped (x : StepRecord) : ClimateState :=
      ((rest.climate.measured 900).steered x 900).started (min x.db 900) (min x.db 900 - x.depression)
    let s (ph : Phase) (i : Fin 128) : State := withA (waitingFor (k ph i))
    (ramped second).Away ∧ ¬(ramped cool).Away ∧ loaded.plant.kiln.maximumDb = 900 ∧
      (s .drying 1).plant.validateResume .a (k .drying 1) = none ∧
      (s .cooldown 2).plant.validateResume .a (k .cooldown 2) = none ∧ loaded.plant.work.records.get 1 = some second ∧
      loaded.plant.work.records.get 2 = some cool ∧
      ((after (s .drying 1) (.resume env 0)).plant.ctx .a).holdPending = true ∧
      ((after (s .cooldown 2) (.resume env 0)).plant.ctx .a).state = .held := by
  refine ⟨⟨600, 540, rfl, rfl, by decide⟩, ?_, by decide +kernel⟩
  rintro ⟨d, w, h1, h2, h3⟩
  cases h1
  cases h2
  revert h3
  decide

/-- `ResumptionRule`'s clauses with an advance at the last stage: the maximum time has passed, within DRYING and out of it. -/
theorem witness_ResumptionRule_advance :
    let k (i : Fin 128) : Checkpoint := { recorded := .phase .drying, step := some i, stepClock := 100 }
    let s (i : Fin 128) : State := withA (waitingFor (k i))
    let t (i : Fin 128) := (after (s i) (.resume env 0)).plant
    (∀ i ∈ [0, 1], (s i).plant.validateResume .a (k i) = none ∧ (s i).plant.Stand .a {}) ∧
      ((t 0).ctx .a).stepIndex = some 1 ∧ ((t 0).ctx .a).state = .phase .drying ∧
      .zone .a .forcedAdvance ∈ (t 0).alerts ∧ .zone .a .stepAdvanced ∈ (t 0).alerts ∧
      .zone .a .phaseChanged ∉ (t 0).alerts ∧
      ((t 1).ctx .a).state = .phase .cooldown ∧ .zone .a .phaseChanged ∈ (t 1).alerts ∧
      .zone .a .stepAdvanced ∉ (t 1).alerts := by
  intro k s t
  refine ⟨fun i h => ⟨?_, ?_⟩, ?_⟩
  · revert i
    decide +kernel
  · constructor <;> (revert i; decide +kernel)
  · decide +kernel

/-- `ResumptionRule`'s clauses with an interlock condition: the zone is taken up in SAFE over the recorded phase. -/
theorem witness_ResumptionRule_safe :
    let k (r : RecordedState) (host : Bool) : Checkpoint := { recorded := r, step := some 1, hostHold := host }
    let s (r : RecordedState) (host : Bool) : State :=
      lineOf (withA (waitingFor (k r host))) { role := .door } fun l => { l with debounced := true, settled := true, timer := none }
    ∀ x ∈ [(RecordedState.held .drying, false), (.phase .drying, false), (.phase .drying, true)],
      (s x.1 x.2).plant.Stand .a { door := true } ∧ (s x.1 x.2).plant.validateResume .a (k x.1 x.2) = none ∧
        ((s x.1 x.2).plant.unit .a).causes.any = false ∧
        (let u := (after (s x.1 x.2) (.resume env 0)).plant.unit .a
         u.ctx.state = .safe ∧ u.ctx.underlying = some .drying ∧ u.causes = { door := true }) := by
  intro k s x h
  refine ⟨?_, ?_⟩
  · constructor <;> (revert x; decide +kernel)
  · revert x
    decide +kernel

/-- Zone A at the last step of DRYING. -/
def finishing : ZoneUnit := ctxOf drying fun c => { c with stepIndex := some 1, activeCopy := some second }

/-- Zone A past the minimum time of its step, dry enough. -/
def dried : ZoneUnit :=
  { ctxOf drying fun c => { c with stepClock := 10 } with aggregate := { cmc := some { value := 200, aboveRange := false } } }

/-- A part whose records reverse the fan every 60 minutes, and zone A with its fan 60 minutes in its direction and HEAT on. -/
def due (u : ZoneUnit) : State :=
  plantOf
    (withA (outputOf u fun o => { o with fan := ⟨.runRev, .reverse, 60, 120, none⟩, heat := ⟨true, 9, some 1⟩ }))
    fun p =>
      { p with
        work := { p.work with records := p.work.records.map (Option.map fun x => { x with fanInterval := 60 }) } }

/-- A step entry, a reload and the first phase entry each make the reversal due (R125): `Plant.Advances`, `AbortAndClearRule`,
`ReloadRule` and `Plant.FirstPhase`. -/
theorem witness_reversal_due :
    let waits : ZoneUnit := ctxOf warm fun c => { c with state := .starting, startTimeout := some 60000 }
    let t (u : ZoneUnit) (c : Instr) : ZoneUnit := (after (due u) c).plant.unit .a
    (∀ k u, (due u).Ready k) ∧ ((due drying).plant.work.records.get 0).map (·.fanInterval) = some 60 ∧
      (∀ x ∈ [t drying (.skip env 0), t drying (.abort env 0), t drying (.reloadStep env 0), t dried (.minuteTimerExpiry .a),
          (after (itemsOf (due waits) fun c => { c with preconditions := ⟨true, false, false⟩ })
            (.climateSampleComplete .a 200 150)).plant.unit .a],
        x.ctx.state.inPhase = true ∧ x.output.fan.machine = .dwellToFwd ∧ x.output.fan.interval = 60 ∧
          x.output.fan.dwellTimer.isSome = true ∧ x.output.heat.level = false ∧ x.output.heat.timer = none) :=
  ⟨fun _ _ => ready _ ⟨rfl, rfl, rfl, rfl⟩, by decide +kernel⟩

theorem witness_SkipRule :
    let finished : ZoneUnit :=
      ctxOf drying fun c => { c with state := .phase .cooldown, stepIndex := some 2, activeCopy := some cool }
    (∀ u, (withA u).Ready .sk) ∧ (∀ u, ¬(withA u).plant.InStep .a) ∧
      -- within the walk, to the next phase that has an entry, and at the last record of all
      (withA drying).plant.Follows .a .drying 0 first .drying 1 ∧
      (withA finishing).plant.Follows .a .drying 1 second .cooldown 2 ∧ (withA finished).plant.LastPhase .a .cooldown ∧
      (drying.ctx.state = .phase .drying ∧ drying.ctx.holdPending = false ∧ drying.ctx.stepIndex = some 0 ∧
        drying.ctx.activeCopy = some first ∧ finishing.ctx.stepIndex = some 1 ∧ finishing.ctx.activeCopy = some second ∧
        finished.ctx.activeCopy = some cool ∧ cool.last = true ∧ loaded.plant.work.records.get 1 = some second ∧
        loaded.plant.work.records.get 2 = some cool ∧ held.ctx.state.phase? = none ∧
        (ctxOf ramping fun c => { c with holdPending := true }).ctx.holdPending = true ∧
        status (withA drying) (.skip env 4) = some .badValue ∧
        ((after (withA finished) (.skip env 0)).plant.ctx .a).state = .done) := by
  refine ⟨fun u => withA_ready u _, fun u h => (by cases h.1), .inl ⟨rfl, rfl, rfl⟩, .inr ⟨rfl, by decide, rfl, ?_⟩, ?_,
    by decide +kernel⟩ <;>
  · intro m
    cases m <;> decide +kernel

/-- `StepJudged`, clause by clause: the zone stays, advances, and waits as a member. -/
theorem witness_StepJudged :
    let finished : ZoneUnit :=
      ctxOf drying fun c => { c with state := .phase .cooldown, stepIndex := some 2, activeCopy := some cool }
    let items := loaded.plant.work.config.zones.get .a
    (locked dried drying).plant.InStep .a ∧ ¬(withA dried).plant.InStep .a ∧
      drying.judgeStep items .drying first = none ∧
      (dried.ctx.state = .phase .drying ∧ dried.ctx.stepIndex = some 0 ∧ dried.ctx.activeCopy = some first ∧
        dried.ctx.holdPending = false ∧ dried.ctx.eligible = none ∧
        dried.judgeStep items .drying first = some .sensorMet) ∧
      (ctxOf finishing fun c => { c with stepClock := 100 }).judgeStep items .drying second = some .maxTime ∧
      finished.judgeStep items .cooldown cool = some .timeOnly ∧
      ((after (locked (ctxOf dried fun c => { c with stepClock := 9 }) drying) (.minuteTimerExpiry .a)).plant.ctx .a).waiting =
        true :=
  ⟨⟨rfl, rfl, .inl rfl⟩, fun h => (by cases h.1), by decide +kernel⟩

theorem witness_AbortAndClearRule :
    let short := plantOf (withA drying) fun p => { p with work := { p.work with entries := .all { drying := some 0 } } }
    (∀ u, (withA u).Ready .ab ∧ (withA u).Ready .cl) ∧ short.Ready .ab ∧
      (∀ ready, (joined ready).Ready .ab) ∧
      (∀ c ∈ [Instr.abort env 4, .clearDone env 4], status loaded c = some .badValue) ∧
      (rest.ctx.state = .idle ∧ (ctxOf rest fun c => { c with state := .starting }).ctx.state = .starting ∧
        (ctxOf rest fun c => { c with state := .done }).ctx.state = .done ∧ safe.ctx.state = .safe ∧
        (ctxOf drying fun c => { c with state := .phase .cooldown }).ctx.state = .phase .cooldown ∧
        held.ctx.state = .held ∧ held.ctx.underlying = some .drying ∧ drying.ctx.state = .phase .drying) ∧
      (short.plant.work.entries.get .a).cooldown = none ∧ (loaded.plant.work.entries.get .a).cooldown = some 2 ∧
      loaded.plant.work.records.get 2 = some cool ∧
      -- the member that is left completes the group's start
      ((after (plantOf (joined true) fun p => p.context .a fun c => { c with ready := false }) (.abort env 0)).plant.ctx
        .b).state = .phase .drying :=
  ⟨fun u => ⟨withA_ready u _, withA_ready u _⟩, ready _ ⟨rfl, rfl, rfl, rfl⟩,
    fun _ => ready _ ⟨rfl, rfl, rfl, rfl⟩, by decide +kernel⟩

theorem witness_ReloadRule :
    let pending : ZoneUnit := ctxOf ramping fun c => { c with holdPending := true, holds := ⟨true, false⟩ }
    -- on its way, with a new copy that asks for the targets as they stand
    let there : StepRecord := { first with db := 470, depression := 20 }
    let s : State :=
      plantOf
        (withA (climateOf pending fun c => { c with dbTarget := 28200, wbTarget := 27000 }))
        fun p => { p with work := { p.work with records := p.work.records.set 0 (some there) } }
    (∀ u, (withA u).Ready .rl) ∧ s.Ready .rl ∧
      (s.plant.unit .a).climate.Away ∧ pending.climate.Away ∧
      status (withA drying) (.reloadStep env 4) = some .badValue ∧ (safe.ctx.state ≠ .held ∧ safe.ctx.state.phase? = none) ∧
      held.ctx.state = .held ∧ held.ctx.stepIndex = some 0 ∧ loaded.plant.work.records.get 0 = some first ∧
      drying.ctx.state = .phase .drying ∧ drying.ctx.holdPending = false ∧
      ((after (withA pending) (.reloadStep env 0)).plant.ctx .a).holdPending = true ∧
      ((after s (.reloadStep env 0)).plant.ctx .a).state = .held :=
  ⟨fun u => withA_ready u _, ready _ ⟨rfl, rfl, rfl, rfl⟩, ⟨500, 460, rfl, rfl, by decide⟩, ramping_away, by decide +kernel⟩

theorem witness_RecoverRule :
    let heated (x : Int) : ZoneUnit :=
      climateOf { safe with causes := { overtemp := true } } fun c => { c with db := { status := .good, value := some x } }
    (∀ u, (withA u).Ready .rv) ∧ status (withA safe) (.recover env 4) = some .badValue ∧ drying.ctx.state ≠ .safe ∧
      ¬(∃ x, (heated 901).climate.db.status = .good ∧ (heated 901).climate.db.value = some x ∧ x ≤ (withA safe).plant.kiln.maximumDb) ∧
      (∃ x, (heated 900).climate.db.status = .good ∧ (heated 900).climate.db.value = some x ∧ x ≤ (withA safe).plant.kiln.maximumDb) ∧
      status (withA (heated 901)) (.recover env 0) = some .wrongState ∧
      ((after (withA (heated 900)) (.recover env 0)).plant.ctx .a).state = .held ∧
      safe.causes.overtemp = false ∧ safe.causes.fan = false ∧
      (let u := { safe with causes := { door := true, fan := true } }
       u.causes.fan = true ∧
         -- HOST joins where FAN leaves and DOOR stays (R142)
         ((after (withA u) (.recover env 0)).plant.unit .a).causes = { door := true } ∧
         ((after (withA u) (.recover env 0)).plant.ctx .a).holds.host = true) := by
  refine ⟨fun u => withA_ready u _, by decide +kernel, by decide, ?_, ⟨900, rfl, rfl, by decide +kernel⟩,
    by decide +kernel⟩
  rintro ⟨x, -, h, h'⟩
  cases h
  revert h'
  decide +kernel

theorem witness_DelayedStartRule :
    let without (e : PhaseEntries) := plantOf timed fun p => { p with work := { p.work with entries := .all e } }
    let grouped : State := groupOf timed
    opened.Ready .ds ∧ opened.plant.Levelled ∧
      (∀ m ∈ [1, 10080], status opened (.delayedStartMinutes env m) = some .ok) ∧
      (∀ m ∈ [0, 10081], status opened (.delayedStartMinutes env m) = some .badValue) ∧
      (timed.mode = .running ∧ timed.plant.delayedStart.isSome = true ∧ timed.plant.fieldEnabled = true ∧
        (timed.plant.ctx .a).state = .idle ∧ (timed.plant.work.config.zones.get .a).startMask.timer = true ∧
        (timed.plant.work.config.zones.get .a).grouped = false ∧ timed.plant.validate .a = none ∧
        (timed.plant.work.config.zones.get .b).startMask.timer = false) ∧
      (plantOf timed fun p => { p with fieldEnabled := false }).plant.fieldEnabled = false ∧
      (without {}).plant.validate .a = some ⟨.drying, .noEntry, none⟩ ∧
      -- a group start from TIMER carries B
      ((grouped.plant.work.config.zones.get .a).grouped = true ∧ (grouped.plant.ctx .a).state = .idle ∧
        ((after grouped .delayedStartExpiry).plant.ctx .a).startSource = .timer ∧
        ((after grouped .delayedStartExpiry).plant.ctx .b).startSource = .group ∧
        (after grouped .delayedStartExpiry).plant.groupTimeout = some 1800000) :=
  ⟨opened_ready _, opened_levelled, by decide +kernel⟩

theorem witness_OverrideRequests :
    let heated (t : OverrideTable) : State := settled (withA (outputOf drying fun o => { o with overrides := t }))
    (∀ k, (withA drying).Ready k) ∧ (∀ t k, (heated t).Ready k) ∧
      (∀ y, ((heated {}).plant.unit y).output.overrides = {}) ∧
      (∀ x ∈ [(4, 0, 1), (0, 5, 1), (0, 0, 0), (0, 0, 3)],
        status (withA drying) (.override env x.1 x.2.1 x.2.2) = some .badValue) ∧
      (∀ x ∈ [(4, 0), (0, 5)], status (withA drying) (.releaseOverride env x.1 x.2) = some .badValue) ∧
      status (heated { vent := .on }) (.override env 0 1 1) = some .conflict ∧
      status (heated { spray := .on }) (.override env 0 2 1) = some .conflict ∧
      (∀ o ∈ [0, 1, 2, 3, 4], ∀ v ∈ [1, 2], status (heated {}) (.override env 3 o v) = some .ok) ∧
      (heated { heat := .off }).plant.settlePins = (heated { heat := .off }).plant ∧
      ((heated { heat := .off }).plant.unit .a).output.overrides.heat ≠ .auto ∧
      (heated {}).plant.settlePins = (heated {}).plant ∧
      status (heated { heat := .off }) (.refreshOverrides env) = some .ok :=
  ⟨fun k => withA_ready _ k, fun _ _ => ready _ ⟨rfl, rfl, rfl, rfl⟩, every_zone rfl rfl rfl rfl, by decide +kernel⟩

theorem witness_FieldAndLineModifyRule :
    opened.Ready .fe ∧ loaded.Ready .fe ∧ (withA drying).Ready .fd ∧ loaded.Ready .fd ∧ opened.Ready .fd ∧ opened.Ready .lw ∧
      (∀ z, (opened.plant.ctx z).state = .resumePending → (opened.plant.work.config.zones.get z).autoResume = false) ∧
      (∀ z, (loaded.plant.ctx z).state ∈ [ZoneState.idle, .done, .resumePending]) ∧
      loaded.plant.fieldEnabled = true ∧ opened.plant.fieldEnabled = false ∧
      ((withA drying).plant.ctx .a).state.guards = true ∧
      (let s := lineOf opened { role := .alarmOut } id
       (s.plant.work.config.lines.get 0).role = .alarmOut ∧ (∀ i : Fin 16, (1 : Nat).testBit i.val = true → i = 0) ∧
         (s.plant.work.config.lines.get 1).role = .none ∧ (3 : Nat).testBit 1 = true ∧
         status s (.lineModify env 1 1) = some .ok ∧ status s (.lineModify env 3 1) = some .badValue) := by
  refine ⟨opened_ready _, loaded_ready _, withA_ready _ _, loaded_ready _, opened_ready _, opened_ready _, fun z => ?_,
    fun z => ?_, by decide +kernel⟩ <;> cases z <;> decide +kernel

/-- `FieldAndLineModifyRule`'s clause for auto-resume: zone A is taken up, or its validation has a finding. -/
theorem witness_FieldAndLineModifyRule_auto :
    let s (i : Fin 128) : State :=
      plantOf (itemsOf (withA (waitingFor { recorded := .phase .drying, step := some i })) fun c => { c with autoResume := true })
        fun p => { p with fieldEnabled := false }
    (∀ i, (s i).Ready .fe ∧ (s i).plant.fieldEnabled = false ∧
      ((s i).plant.ctx .a).state = .resumePending ∧ ((s i).plant.work.config.zones.get .a).autoResume = true ∧
      (∀ y, y ≠ Zone.a → ((s i).plant.ctx y).state ≠ .resumePending)) ∧
      (s 1).plant.validateResume .a (((s 1).plant.ctx .a).resumeFrom.getD {}) = none ∧
      (s 9).plant.validateResume .a (((s 9).plant.ctx .a).resumeFrom.getD {}) ≠ none ∧
      ((after (s 1) (.fieldEnable env)).plant.ctx .a).state = .phase .drying ∧
      ((after (s 9) (.fieldEnable env)).plant.ctx .a).state = .resumePending ∧
      .zone .a .resumeWaiting ∈ (after (s 9) (.fieldEnable env)).plant.alerts := by
  refine ⟨fun i => ⟨ready _ ⟨rfl, rfl, rfl, rfl⟩, rfl, rfl, rfl,
    every_zone (fun h => absurd rfl h) (fun _ h => by cases h) (fun _ h => by cases h) (fun _ h => by cases h)⟩,
    by decide +kernel⟩

theorem witness_PassTimerRule :
    let going : ZoneUnit := { rest with pass := { rest.pass with progress := some ⟨[9], [9]⟩ } }
    let one := inFlight (probeAt (probeAt opened 9 (moist 9) (valid 100)) 10 (moist 10) { state := .failed })
      (measuring 9 (.zone .b) .moisture false)
    (withA going).mode = .running ∧ going.pass.timer.isSome = true ∧ going.pass.progress.isSome = true ∧
      one.mode = .running ∧ (one.plant.unit .a).pass.timer.isSome = true ∧ (one.plant.unit .a).pass.progress = none ∧
      one.plant.frontEnd.inFlight.isSome = true ∧
      (∀ i : Fin 64, i ∈ [(9 : Fin 64)] ↔
        (one.plant.work.probes.get i).zone = some .a ∧
          ((one.plant.records.get i).map fun r => decide (r.state ∉ [.excluded, .failed, .unreachable])) = some true) ∧
      -- with a measurement in flight no grant follows, and with the front end free it does
      (after one (.passTimerExpiry .a)).plant.frontEnd = one.plant.frontEnd ∧
      (let free := plantOf one fun p => { p with frontEnd := {} }
       ((after free (.passTimerExpiry .a)).plant.frontEnd.inFlight.map fun m => (m.requester, m.entry)) =
         some (.zone .a, 9)) ∧
      busy.plant.frontEnd.inFlight.isSome = true ∧ (busy.plant.unit .a).pass.timer.isSome = true ∧
      (busy.plant.unit .a).pass.progress = none ∧
      (∀ i : Fin 64, (busy.plant.work.probes.get i).zone ≠ some .a) ∧ (busy.plant.unit .a).pass.due = false ∧
      (busy.plant.unit .a).ctx.state = .idle ∧ 1 ≤ (busy.plant.work.config.zones.get .a).nmin := by
  decide +kernel

theorem witness_MeasurementRule :
    let run (r : ProbeRecord) (m : Measurement) := inFlight (probeAt opened 9 (moist 9) r) m
    let fresh := measuring 9 (.zone .a) .moisture false
    (∀ m ∈ [fresh, measuring 9 (.zone .a) .moisture true, measuring 9 .spot .moisture false,
        measuring 9 .spot .moisture true],
      (run (valid 100) m).mode = .running ∧ (run (valid 100) m).plant.frontEnd.inFlight = some m ∧
        (run (valid 100) m).plant.records.get 9 = some (valid 100)) ∧
      classify .moisture (average .moisture 4 [159, 159, 159, 159]) = .short ∧
      classify .moisture (average .moisture 4 [833, 833, 833, 833]) = .open ∧
      (∀ l ∈ [160, 832], classify .moisture (average .moisture 4 [l, l, l, l]) = .inRange) ∧
      (opened.plant.items .a).failCount = 3 ∧
      (let t r l := (after (run r fresh) (.measurementCompletion [l, l, l, l])).plant.records.get 9
       (t { state := .short, failStreak := 1 } 833).map (·.state) = some .open ∧
         (t { state := .short, failStreak := 2 } 833).map (·.state) = some .failed ∧
         (t (valid 139) 480).map (·.state) = some .valid ∧ (t (valid 170) 480).map (·.state) = some .held) ∧
      (plantOf opened fun p => { p with straps := ⟨0, 0, 2⟩ }).plant.straps.addressExists 0 16 = false ∧
      opened.plant.straps.addressExists 0 9 = true := by decide +kernel

/-- Zone A's pass over P9 and P10, at P9 with the entries `more` after it. -/
def passing (more : List (Fin 64)) (due : Bool) : State :=
  plantOf
    (inFlight (probeAt (probeAt opened 9 (moist 9) (valid 100)) 10 (moist 10) (valid 100))
      (measuring 9 (.zone .a) .moisture false))
    fun p =>
      p.put .a { p.unit .a with pass := { (p.unit .a).pass with due := due, progress := some ⟨[9, 10], 9 :: more⟩ } }

/-- `MeasurementRule`'s clauses for the pass that a measurement belongs to, and for the average. -/
theorem witness_MeasurementRule_pass :
    let t (more : List (Fin 64)) (due : Bool) := (after (passing more due) (.measurementCompletion [480, 480, 480, 480])).plant
    (∀ more due, (passing more due).mode = .running ∧
      ((passing more due).plant.unit .a).pass.progress = some ⟨[9, 10], 9 :: more⟩ ∧
      ((passing more due).plant.unit .a).pass.due = due) ∧
      ([9, 10] : List (Fin 64)).drop 1 = [] ++ 10 :: [] ∧
      (∀ i ∈ [(9 : Fin 64), 10], ((passing [] false).plant.work.probes.get i).zone = some .a) ∧
      ((passing [8, 10] false).plant.work.probes.get 8).zone = none ∧
      ((t [10] false).frontEnd.inFlight.map fun m => (m.entry, m.window, m.samples, m.duration)) =
        some (10, .default, 4, 180) ∧
      ((t [8, 10] false).unit .a).pass.progress = some ⟨[9, 10], [10]⟩ ∧ (t [10] false).mux = 0x4A#8 ∧
      ((t [] false).unit .a).pass.progress = none ∧ ((t [] false).unit .a).aggregate.count = 2 ∧
      ((t [] true).unit .a).pass.progress = some ⟨[9, 10], [9, 10]⟩ ∧ ((t [] true).unit .a).pass.due = false ∧
      -- the slot asks too, and is granted first
      (let q := (after (plantOf (passing [10] false) fun p => { p with spot := .waiting 63, arbiter := { p.arbiter with pointer := .zone .a } })
          (.measurementCompletion [480, 480, 480, 480])).plant
       (q.frontEnd.inFlight.map fun m => (m.requester, m.entry)) = some (.spot, 63) ∧
         (q.unit .a).pass.progress = some ⟨[9, 10], [10]⟩ ∧ q.arbiter.pointer = .spot) ∧
      (average .moisture 4 [0, 1023, 1, 1] = 256 ∧ average .moisture 2 [1, 2, 900] = 2 ∧
        average .woodTemp 4 [-1, -1, -1, -3] = -2 ∧ average .woodTemp 4 [-400, 1500, 0, 2] = 276) := by
  refine ⟨fun more due => ⟨rfl, rfl, rfl⟩, by decide +kernel⟩

theorem witness_MinuteRule :
    (∀ u, (withA u).mode = .running ∧ ∀ y, ¬(withA u).plant.InStep y) ∧
      ((locked drying (ctxOf drying fun c => { c with waiting := true })).plant.InStep .a) ∧
      (∀ u ∈ [rest, drying, held, safe, finishing], u.ctx.minuteTimer.isSome = true) ∧
      rest.ctx.state ∈ [ZoneState.idle, .starting, .done, .resumePending] ∧ safe.ctx.state = .safe ∧
      (ctxOf safe fun c => { c with checkpointCount := 29 }).ctx.checkpointCount + 1 = 30 ∧ held.ctx.state = .held ∧
      (drying.ctx.state.inPhase = true ∧ drying.ctx.waiting = false ∧ drying.ctx.activeCopy = some first ∧
        1 < first.minTime ∧ 1 < first.maxTime) ∧
      (drying.output.fan.machine = .runFwd ∧ drying.output.fan.interval = 0 ∧
        (outputOf held fun o => { o with fan := {} }).output.fan.machine = .stopped) ∧
      (let u := outputOf drying fun o => { o with fan := ⟨.runRev, .reverse, 179, 180, none⟩ }
       u.output.fan.interval ≠ 0 ∧ u.output.fan.interval = min 720 (u.output.fan.reversalCount + 1) ∧
         ((after (withA u) (.minuteTimerExpiry .a)).plant.unit .a).output.fan.machine = .dwellToFwd) :=
  ⟨fun u => ⟨rfl, fun y h => (by cases y <;> cases h.1)⟩, ⟨rfl, rfl, .inl rfl⟩, by decide +kernel⟩

/-- `EligibilityRule`'s minute: the zone stays, advances, ends its run, and its fan goes on or falls due. -/
theorem witness_EligibilityRule :
    let last : ZoneUnit :=
      outputOf (ctxOf drying fun c => { c with state := .phase .cooldown, stepIndex := some 2, activeCopy := some cool })
        fun o => { o with fan := {} }
    let turning : ZoneUnit := outputOf dried fun o => { o with fan := ⟨.runRev, .reverse, 719, 720, none⟩ }
    let t (u : ZoneUnit) := (after (withA u) (.minuteTimerExpiry .a)).plant
    (∀ u, (withA u).mode = .running) ∧
      (∀ u ∈ [drying, dried, finishing, last, turning],
        u.ctx.minuteTimer.isSome = true ∧ u.ctx.state.inPhase = true ∧ u.ctx.waiting = false) ∧
      ((t drying).ctx .a).stepIndex = some 0 ∧ ((t dried).ctx .a).stepIndex = some 1 ∧
      ((t (ctxOf dried fun c => { c with checkpointCount := 29 })).ctx .a).checkpointCount = 0 ∧
      ((t (ctxOf finishing fun c => { c with stepClock := 99 })).ctx .a).state = .phase .cooldown ∧
      .zone .a .forcedAdvance ∈ (t (ctxOf finishing fun c => { c with stepClock := 99 })).alerts ∧
      ((t last).ctx .a).state = .done ∧ ((t drying).unit .a).output.fan.reversalCount = 1 ∧
      ((t (outputOf drying fun o => { o with fan := ⟨.runRev, .reverse, 719, 720, none⟩ })).unit .a).output.fan.machine =
        .dwellToFwd :=
  ⟨fun _ => rfl, by decide +kernel⟩

/-- Zone A in STARTING as a member. -/
def member : State :=
  plantOf (itemsOf (withA starting) fun c => { c with grouped := true }) fun p => { p with groupTimeout := some 1 }

theorem witness_StartTimeoutRule :
    (withA starting).mode = .running ∧ ((withA starting).plant.ctx .a).state = .starting ∧
      ((withA starting).plant.ctx .a).startTimeout.isSome = true ∧ member.mode = .running ∧
      member.plant.groupTimeout.isSome = true ∧ (member.plant.work.config.zones.get .a).grouped = true ∧
      (member.plant.ctx .a).state = .starting := by decide +kernel

theorem witness_ClimateSampleRule :
    (∀ u, (withA u).mode = .running) ∧
      (∀ u ∈ [rest, held, drying, safe], u.climate.sampleTimer.isSome = true) ∧
      rest.ctx.state ∈ [ZoneState.idle, .done, .resumePending] ∧ held.ctx.state = .held ∧ drying.ctx.state.inPhase = true ∧
      safe.ctx.state = .safe ∧
      (-- a cause set of each kind, as the samples make it
        let q (u : ZoneUnit) (db wb : Int) := ((after (withA u) (.climateSampleComplete .a db wb)).plant.unit .a).causes
        let sensed : ZoneUnit :=
          climateOf { safe with causes := { sensor := true } } fun c => { c with db := { status := .faulty, goodStreak := 2 } }
        -- SENSOR stays, then leaves while DOOR stays (R142)
        let host (n : Nat) : Bool :=
          let u : ZoneUnit :=
            climateOf { safe with causes := { door := true, sensor := true } } fun c =>
              { c with db := { status := .faulty, goodStreak := n } }
          ((after (withA u) (.climateSampleComplete .a 500 400)).plant.ctx .a).holds.host
        host 1 = false ∧ host 2 = true ∧
          q drying (-200) 1300 = {} ∧ q drying (-201) 400 = { sensor := true } ∧ q held 930 400 = {} ∧
          q held 931 400 = { overtemp := true } ∧ q safe 500 1301 = { door := true, sensor := true } ∧
          q sensed 500 400 = {}) ∧
      (-- a zone in STARTING enters its first phase, or waits
        beginning.mode = .running ∧ (beginning.plant.unit .a).climate.sampleTimer.isSome = true ∧
          (beginning.plant.ctx .a).state = .starting ∧ (beginning.plant.work.config.zones.get .a).grouped = false ∧
          ((after beginning (.climateSampleComplete .a 930 150)).plant.ctx .a).state = .phase .drying ∧
          ((after beginning (.climateSampleComplete .a 931 150)).plant.ctx .a).state = .starting) :=
  ⟨fun _ => rfl, by decide +kernel⟩

theorem witness_RampMinuteRule :
    let u (db wb : Int) (pending : Bool) : ZoneUnit :=
      climateOf (ctxOf ramping fun c => { c with holdPending := pending }) fun c => { c with dbTarget := db, wbTarget := wb }
    (∀ db wb pending, (withA (u db wb pending)).mode = .running ∧ (u db wb pending).climate.rampTimer.isSome = true ∧
      (u db wb pending).ctx.state = .phase .drying ∧ (u db wb pending).climate.dbSetpoint = some 500 ∧
      (u db wb pending).climate.wbSetpoint = some 460 ∧ (u db wb pending).ctx.holdPending = pending) ∧
      (∀ x ∈ [(29979, 27600), (29980, 27600), (30020, 27581)], ∀ pending, (u x.1 x.2 pending).climate.Away) ∧
      ((after (withA (u 29979 27600 false)) (.rampMinuteExpiry .a)).plant.unit .a).climate.dbTarget = 29999 ∧
      ((after (withA (u 29980 27600 false)) (.rampMinuteExpiry .a)).plant.unit .a).climate.dbTarget = 30000 ∧
      ((after (withA (u 30020 27581 true)) (.rampMinuteExpiry .a)).plant.ctx .a).state = .held := by
  refine ⟨fun _ _ _ => ⟨rfl, rfl, rfl, rfl, rfl, rfl⟩, ?_, by decide +kernel⟩
  intro x hx pending
  refine ⟨500, 460, rfl, rfl, ?_⟩
  revert pending
  revert x
  decide +kernel

theorem witness_PulseRule :
    let fed (db wb : Int) : State := withA (sampledAt db wb 36000 33600)
    let on : ZoneUnit :=
      outputOf drying fun o =>
        { o with heat := ⟨true, 9, some 1⟩, spray := ⟨true, 9, some 1⟩, vent := ⟨true, 9, some 1⟩ }
    (∀ u, (withA u).mode = .running) ∧ drying.output.pulseTimer.isSome = true ∧
      (drying.ctx.state.inPhase = true ∧ drying.output.fan.machine = .runFwd ∧ loaded.plant.fieldEnabled = true) ∧
      (rest.ctx.state ≠ .held ∧ rest.ctx.state.inPhase = false) ∧ drying.climate.db.status ≠ .good ∧
      ((fed 593 566).plant.unit .a).climate.db = { status := .good, value := some 593 } ∧
      ((fed 593 566).plant.unit .a).climate.wb.status = .good ∧
      (climateOf (sampledAt 593 566 36000 33600) fun c => { c with wb := { status := .faulty } }).climate.wb.status ≠ .good ∧
      (-- an error of nothing, the least that counts, and the whole band
        let out (db wb : Int) := ((after (fed db wb) (.pulsePeriodStart .a)).plant.unit .a).output
        (out 600 560).heat.onTime = 0 ∧ (out 599 560).heat.onTime = 2 ∧ (out 570 560).heat.onTime = 60 ∧
          (out 570 560).heat.timer = none ∧ (out 600 561).vent.onTime = 3 ∧ (out 600 559).spray.onTime = 3) ∧
      on.output.heat.timer.isSome = true ∧ on.output.spray.timer.isSome = true ∧ on.output.vent.timer.isSome = true :=
  ⟨fun _ => rfl, by decide +kernel⟩

theorem witness_FanAndLapseExpiries :
    let dwelling (rev : Bool) : ZoneUnit :=
      outputOf drying fun o => { o with fan := ⟨if rev then .dwellToRev else .dwellToFwd, .forward, 240, 240, some 1⟩ }
    let unproved (u : ZoneUnit) : ZoneUnit := outputOf u fun o => { o with proofTimer := some 1 }
    (∀ u, (withA u).mode = .running) ∧
      (∀ rev, (dwelling rev).output.fan.machine = (if rev = true then .dwellToRev else .dwellToFwd) ∧
        (dwelling rev).output.fan.dwellTimer.isSome = true) ∧
      (∀ u ∈ [rest, safe, held, drying], (unproved u).output.proofTimer.isSome = true) ∧
      (unproved rest).ctx.state ∈ [ZoneState.idle, .starting, .done, .resumePending] ∧ (unproved safe).ctx.state = .safe ∧
      (unproved held).ctx.state = .held ∧ (unproved drying).ctx.state.inPhase = true ∧
      (plantOf (withA drying) fun p => { p with lapse := some 1 }).plant.lapse.isSome = true :=
  ⟨fun _ => rfl, by decide +kernel⟩

theorem witness_DebounceRule :
    let l (c : LineConfig) : State := lineOf opened c fun l => { l with settled := true, timer := none }
    (after opened .pinReset).mode ≠ .running ∧ (l {}).mode = .running ∧ (l {}).plant.lines.get 0 = { settled := true } ∧
      (l { role := .alarmOut }).plant.work.config.lines.get 0 = { role := .alarmOut } ∧
      (opened.plant.lines.get 0).settled = false ∧
      (l { polarity := .activeLow }).plant.work.config.lines.get 0 = { polarity := .activeLow } ∧
      (∀ n ∈ [1, 7], ((after (l { role := .door, debounce := n }) (.pinChange 0 true)).plant.lines.get 0).timer.isSome =
        true) ∧
      ((after (l { role := .generalIn, debounce := 0 }) (.pinChange 0 true)).plant.lines.get 0).debounced = true ∧
      (opened.plant.work.config.lines.get 0).role = .none ∧ (opened.plant.lines.get 0).timer.isSome = true := by
  decide +kernel

theorem witness_LineDeliveryRule :
    let line (role : LineRole) (n : Nat) : LineConfig := { role := role, debounce := n }
    let fired (role : LineRole) (u : ZoneUnit) : State :=
      itemsOf (lineOf (withA u) (line role 3) fun l => { l with external := true, settled := true, timer := some 1 })
        fun c => { c with startMask := ⟨false, true, false⟩ }
    -- the same change at once, with debounce code 0
    let ready (role : LineRole) (u : ZoneUnit) : State :=
      itemsOf (lineOf (withA u) (line role 0) fun l => { l with settled := true, timer := none })
        fun c => { c with startMask := ⟨false, true, false⟩ }
    let t (role : LineRole) (u : ZoneUnit) : List Plant :=
      [(after (fired role u) (.debounceTimerExpiry 0)).plant, (after (ready role u) (.pinChange 0 true)).plant]
    (∀ role u, (fired role u).mode = .running ∧ ((fired role u).plant.lines.get 0).timer.isSome = true ∧
      (ready role u).mode = .running ∧ ((ready role u).plant.lines.get 0).settled = true ∧
      ((ready role u).plant.lines.get 0).debounced = false ∧ ((ready role u).plant.lines.get 0).external = false) ∧
      (∀ role ∈ [LineRole.door, .holdIn, .startButton],
        ((fired role drying).plant.work.config.lines.get 0).role = role ∧
          ((ready role drying).plant.work.config.lines.get 0).debounce = 0 ∧
          ((fired role drying).plant.lines.get 0).debounced = false ∧
          ((fired role drying).plant.lines.get 0).external =
            (((fired role drying).plant.work.config.lines.get 0).polarity == .activeHigh)) ∧
      (fired .door drying).plant.doorOpen = false ∧ (fired .holdIn drying).plant.holdIn = false ∧
      (∀ p ∈ t .startButton rest, (p.ctx .a).startSource = .line) ∧
      (∀ p ∈ t .door held, p.doorOpen = true ∧ (p.ctx .a).state = .safe) ∧
      (∀ p ∈ t .holdIn drying, p.holdIn = true ∧ (p.ctx .a).state = .held ∧ (p.ctx .a).holds = ⟨false, true⟩) ∧
      (∀ p ∈ t .holdIn ramping, (p.ctx .a).state = .phase .drying ∧ (p.ctx .a).holdPending = true) ∧
      -- a group start from LINE carries B
      (let p := (after (groupOf (fired .startButton rest)) (.debounceTimerExpiry 0)).plant
       (p.ctx .a).startSource = .line ∧ (p.ctx .b).startSource = .group ∧ (p.ctx .b).state = .starting) :=
  ⟨fun _ _ => ⟨rfl, rfl, rfl, rfl, rfl, rfl⟩, by decide +kernel⟩

/-- `LineDeliveryRule`'s clauses for a door that closes, a hold line released, a proof, and the zones in STARTING. -/
theorem witness_LineDeliveryRule_falls :
    let released (role : LineRole) (u : ZoneUnit) : State :=
      lineOf (withA u) { role := role } fun l => { l with debounced := true, settled := true, timer := some 1 }
    let t (s : State) := (after s (.debounceTimerExpiry 0)).plant
    let kept (f : SafeCauses → SafeCauses) : ZoneUnit := { safe with causes := f safe.causes }
    let lined (u : ZoneUnit) (host : Bool) : ZoneUnit := ctxOf u fun c => { c with holds := ⟨host, true⟩ }
    let waiting : ZoneUnit := ctxOf (lined ramping false) fun c => { c with holdPending := true }
    let begun (role : LineRole) (active : Bool) : State :=
      lineOf beginning { role := role } fun l =>
        { l with external := !active, debounced := active, settled := true, timer := some 1 }
    -- two members of a lockstep set, one held by LINE, whose release lets both advance
    let last : ZoneUnit := ctxOf drying fun c => { c with eligible := some .timeOnly, waiting := true }
    let both : State :=
      lineOf (locked last (lined (ctxOf held fun c => { c with stepClock := 10, activeCopy := some { first with sensor := .notUsed } })
        false)) { role := .holdIn } fun l => { l with debounced := true, settled := true, timer := some 1 }
    (∀ role u, (released role u).mode = .running ∧ ((released role u).plant.lines.get 0).timer.isSome = true ∧
      ((released role u).plant.lines.get 0).debounced = true ∧ ((released role u).plant.lines.get 0).external = false) ∧
      (released .door safe).plant.doorOpen = true ∧ (t (released .door safe)).doorOpen = false ∧
      (released .holdIn held).plant.holdIn = true ∧ (t (released .holdIn held)).holdIn = false ∧
      ((t (released .door safe)).ctx .a).state = .held ∧
      ((t (released .door (kept fun c => { c with fan := true }))).unit .a).causes = { fan := true } ∧
      ((t (released .door (kept fun c => { c with fan := true }))).ctx .a).holds.host = true ∧
      ((t (released .door drying)).ctx .a).state = .phase .drying ∧ drying.causes.any = false ∧
      ((t (released .holdIn (lined held true))).ctx .a).holds = ⟨true, false⟩ ∧
      ((t (released .holdIn (lined held false))).ctx .a).state = .phase .drying ∧ held.ctx.underlying = some .drying ∧
      held.climate.dbSetpoint = some 500 ∧ held.climate.wbSetpoint = some 460 ∧
      ((t (released .holdIn waiting)).ctx .a).holdPending = false ∧ waiting.ctx.state.inPhase = true ∧
      ((begun .fanProof false).plant.ctx .a).state = .starting ∧
      ((begun .fanProof false).plant.work.config.lines.get 0).zone = .a ∧
      ((t (begun .fanProof false)).ctx .a).state = .phase .drying ∧
      ((t (begun .door true)).ctx .a).state = .phase .drying ∧ ((t (begun .door false)).ctx .a).state = .starting ∧
      (∀ z ∈ [Zone.a, .b], ((t both).ctx z).stepIndex = some 1) :=
  ⟨fun _ _ => ⟨rfl, rfl, rfl, rfl⟩, by decide +kernel⟩

/-- A proof that comes after the proof delay has run out completes STARTING, and FAN does not join: the mark is no (R137,
R138). -/
theorem test_late_proof :
    let s :=
      lineOf
        (itemsOf
          (plantOf beginning fun p =>
            p.put .a
              { outputOf (p.unit .a) fun o => { o with fan := { o.fan with machine := .runFwd } } with proofOverdue := true })
          fun c => { c with preconditions := ⟨false, true, false⟩ })
        { role := .fanProof } fun l => { l with external := true, settled := true, timer := some 1 }
    ((after s (.debounceTimerExpiry 0)).plant.ctx .a).state = .phase .drying ∧
      ((after s (.debounceTimerExpiry 0)).plant.unit .a).proofOverdue = false := by decide +kernel

/-- A state with an unanswered request. -/
def unanswering (s : State) (u : Unanswered) : State := linkOf s fun l => { l with unanswered := some u }

/-- An answered request, that may be a broadcast, wait for its write, or be an RS. -/
def pendingReply (broadcast awaits resets : Bool) : Unanswered :=
  { kind := RequestKind.st.letters, tag := 7, broadcast := broadcast, answer := { status := .ok }, awaitsStore := awaits,
    resets := resets }

theorem witness_ReceiverRule :
    (Instr.status env).envelope = some env ∧ (after opened .pinReset).mode ≠ .running ∧
      (linkOf opened fun l => { l with txen := true }).link.txen = true ∧
      (unanswering opened (pendingReply false false false)).link.unanswered.isSome = true ∧ opened.mode = .running ∧
      opened.link.txen = false ∧ opened.link.receiver = .hunt ∧ (0xC4 : Byte) ≠ 0xC3 ∧
      (∀ bytes ∈ [[0xC3#8], [0xC3, 1], [0xC3, 1, 3, 83, 84]],
        (linkOf opened fun l => { l with receiver := .frame bytes }).link.receiver = .frame bytes) ∧
      (∀ x ∈ [(0, 1), (2, 1), (251, 1), (3, 0), (250, 0)],
        (after collecting (.byteArrival (b8 x.1))).link.checkErrors = x.2) ∧
      ([0xC3#8, 1, 3, 83, 84] : List Byte)[2]? = some 3 ∧ 5 + 1 ≠ (3 : Byte).toNat + 5 ∧
      (after (linkOf opened fun l => { l with receiver := .frame [0xC3, 1, 3, 83, 84] }) (.byteArrival 1)).link.receiver =
        .frame [0xC3, 1, 3, 83, 84, 1] := by decide +kernel

theorem witness_FrameJudgementRule :
    let body (station k l : Byte) : List Byte := [station, 3, k, l, 1]
    let s (station k l : Byte) (hi : Byte) : State :=
      linkOf opened fun x => { x with receiver := .frame ([0xC3] ++ (body station k l ++ []) ++ [hi]) }
    (∀ station k l hi, (s station k l hi).mode = .running ∧ (s station k l hi).link.txen = false ∧
      ([] : List Byte).length + 3 = (3 : Byte).toNat ∧
      (s station k l hi).link.receiver = .frame ([0xC3] ++ (body station k l ++ []) ++ [hi])) ∧
      opened.plant.straps.station = 1 ∧ opened.link.unanswered = none ∧
      (∀ bytes : List Byte, ∃ hi lo : Byte, crcBytes (crcOf bytes) = [hi, lo] ∧ crcBytes (crcOf bytes) ≠ [hi, lo + 1]) ∧
      (∀ kind : RequestKind, kind.letters ≠ (0x58, 0x58)) ∧
      -- ZR with no byte is too short, and ST with none is not
      (RequestKind.zr.letters = (0x5A, 0x52) ∧ ([] : List Byte).length ≠ 1 ∧ RequestKind.st.letters = (0x53, 0x54)) ∧
      (-- the lengths of each kind, one byte less, and one more
        let judged (kind : RequestKind) (payload : List Byte) : Bool :=
          match parseRequest { broadcast := false, tag := 1 } kind.letters payload with
          | .badForm => false
          | _ => true
        (∀ x ∈ [(RequestKind.ov, 3), (.lw, 4), (.un, 8), (.pw, 9), (.ew, 11), (.gw, 21)], ∀ n ∈ [-1, 0, 1],
          judged x.1 (List.replicate (x.2 + n : Int).toNat 1) = decide (n = 0)) ∧
          (∀ x ∈ [((0 : Byte), 9), (1, 23), (2, 4), (3, 4), (4, 9), (5, 4), (6, 8)], ∀ n ∈ [-1, 0, 1],
            judged .cw (x.1 :: List.replicate (x.2 - 1 + n : Int).toNat 1) = decide (n = 0)) ∧
          judged .cw [7] = true ∧ judged .ak [1, 0, 0] = true ∧ judged .ak [1, 0] = false) := by
  refine ⟨fun _ _ _ _ => ⟨rfl, rfl, rfl, rfl⟩, by decide +kernel, by decide +kernel, fun bytes => ⟨_, _, rfl, ?_⟩, ?_,
    by decide +kernel, by decide +kernel⟩
  · simp [crcBytes]
  intro kind
  cases kind <;> decide +kernel

theorem witness_FrameCarriesRequest :
    (Instr.status ⟨false, 1⟩).wellFormed = true ∧ (Instr.status ⟨false, 1⟩).envelope = some ⟨false, 1⟩ ∧
      encodeRequest (.status ⟨false, 1⟩) = some (.st, []) ∧
      requestFrame opened.plant.straps.station .st 1 [] = statusFrame.take 7 ++ [statusFrame.getD 7 0] ∧
      opened.mode = .running ∧ opened.link.txen = false ∧ opened.link.receiver = .hunt := by decide +kernel

theorem witness_PayloadRoundTrip :
    let i : Instr := .cwKiln env ⟨-32768, 255, 255, 255, 255, 255⟩
    i.wellFormed = true ∧ i.envelope = some env ∧ (encodeRequest i).isSome = true := by decide +kernel

theorem witness_ReplyRule :
    (after opened .pinReset).mode ≠ .running ∧ opened.link.unanswered = none ∧ opened.link.txen = false ∧
      (∀ broadcast awaits resets, let s := unanswering opened (pendingReply broadcast awaits resets)
        s.mode = .running ∧ s.link.unanswered = some (pendingReply broadcast awaits resets) ∧ s.link.txen = false ∧
          (pendingReply broadcast awaits resets).awaitsStore = awaits ∧
          (pendingReply broadcast awaits resets).broadcast = broadcast) ∧
      (after (unanswering opened (pendingReply false false true)) .replyStart).link.txen = true ∧
      (after (after (unanswering opened (pendingReply false false true)) .replyStart) .replyEnd).link.resetDue = true ∧
      -- a broadcast RS resets where its reply would begin
      ((pendingReply true false true).resets = true ∧ (pendingReply true false false).resets = false ∧
        (after (unanswering opened (pendingReply true false true)) .replyStart).mode = .inReset .commanded ∧
        (after (unanswering opened (pendingReply true false false)) .replyStart).mode = .running) ∧
      -- a record with its form byte, a finding, an absent value, a set, a temperature
      (Layout.content (.recordRead 3 (some first)) =
          [3, 1, 1, 1, 0xF4, 0, 40, 20, 0, 200, 0, 0, 10, 0, 100, 0, 0] ∧
        Layout.content (.finding ⟨.cooldown, .noMarker, some 127⟩) = [4, 2, 1, 127] ∧
        Layout.content (.lapseLeft none) = [0, 0] ∧ Layout.content (.causes ⟨true, false, false, true⟩) = [9] ∧
        (Layout.content (.kiln {})).take 2 = [0x03, 0x84]) := by decide +kernel

/-- A part that writes an item, with others waiting. -/
def writing (w : StoreWrite) (waiting : List StoreItem) : State :=
  plantOf opened fun p => { p with queue := { inFlight := some w, waiting := waiting } }

theorem witness_StoreWriteRule :
    opened.plant.queue.inFlight = none ∧
      (writing (.checkpoint .b {}) []).plant.queue.inFlight.isSome = true ∧
      (∀ d : Checkpoint, StoreItem.checkpoint .a d ∉ (writing (.checkpoint .b {}) [.checkpoint .c {}]).plant.queue.waiting) ∧
      (writing (.checkpoint .b {}) [.host .species, .checkpoint .a {}, .checkpoint .c {}]).plant.queue.waiting =
        [.host .species] ++ .checkpoint .a {} :: [.checkpoint .c {}] ∧
      (∀ e : Checkpoint, StoreItem.checkpoint .a e ∉ [.host .species]) ∧
      (rest.ctx.state = .idle ∧ drying.ctx.state = .phase .drying ∧ held.ctx.underlying = some .drying ∧
        safe.ctx.underlying = some .drying) ∧
      (writing (.checkpoint .b {}) []).mode = .running ∧ (after opened .pinReset).mode ≠ .running ∧
      (writing (.checkpoint .b {}) []).plant.queue.inFlight = some (.checkpoint .b {}) ∧
      (∀ broadcast,
        (unanswering (writing (.host (.accessCode [])) []) (pendingReply broadcast true false)).plant.queue.inFlight =
          some (.host (.accessCode [])) ∧
        (unanswering (writing (.host (.accessCode [])) []) (pendingReply broadcast true false)).link.unanswered =
          some (pendingReply broadcast true false) ∧
        (pendingReply broadcast true false).awaitsStore = true) ∧
      (writing (.host (.accessCode [])) []).link.unanswered = none := by
  refine ⟨rfl, rfl, ?_, rfl, ?_, by decide, rfl, by decide +kernel, rfl, fun _ => ⟨rfl, rfl, rfl⟩, rfl⟩
  · intro d h
    simp [writing, plantOf] at h
  · intro e h
    simp at h

theorem witness_ResetRule :
    opened.mode = .running ∧ (after opened .pinReset).mode ≠ .running ∧
      (linkOf opened fun l => { l with resetDue := true }).mode = .running ∧
      (linkOf opened fun l => { l with resetDue := true }).link.resetDue = true ∧ opened.link.resetDue = false ∧
      opened.mode ≠ .off ∧ (after opened .powerLoss).mode = .off := by decide +kernel

theorem witness_RestartRule :
    (∀ k, opened.mode ≠ .inReset k) ∧ (after opened .pinReset).mode = .inReset .pin ∧
      (after opened .powerOnReset).mode = .inReset .powerOn ∧
      (∀ c ∈ [({} : Checkpoint), { recorded := .done }, { recorded := .phase .drying, step := some 0 },
          { recorded := .held .drying, step := some 0 }],
        (plantOf (after opened .pinReset) fun p =>
          { p with store := { p.store with checkpoints := p.store.checkpoints.set .a (some c) } }).plant.store.checkpoints.get .a =
          some c) ∧
      (plantOf (after opened .pinReset) fun p =>
        { p with store := { p.store with checkpoints := p.store.checkpoints.set .a none } }).plant.store.checkpoints.get .a =
        none := ⟨fun _ h => (by cases h), by decide +kernel⟩

/-- A part in reset whose store holds a probe table with P9 and P10 in zone B, a favoured zone or none, and no checkpoint of
zone A. -/
def restarting (mode : ScanMode) (favoured : Zone) : State :=
  plantOf (after opened .pinReset) fun p =>
    { p with
      store :=
        { p.store with
          configuration := some { Configuration.delivered with scan := { mode := mode, favoured := favoured } }
          probeTable := some (((Table.fill 64 {}).set 9 { zone := some .b, position := 9 }).set 10 { zone := some .b, position := 10 })
          checkpoints := p.store.checkpoints.set .a none } }

/-- `RestartRule`'s clauses for the lines, the queue, the first passes and the first grant. -/
theorem witness_RestartRule_first :
    let t (mode : ScanMode) (z : Zone) := (after (restarting mode z) (.restart 0 0 0)).plant
    (∀ mode z, (restarting mode z).mode = .inReset .pin ∧ (restarting mode z).plant.store.checkpoints.get .a = none) ∧
      ((t .equal .a).unit .b).pass.progress = some ⟨[9, 10], [9, 10]⟩ ∧ ((t .equal .a).unit .a).pass.progress = none ∧
      ((t .equal .a).unit .a).aggregate.blind = true ∧ (t .equal .a).arbiter = { pointer := .zone .b, turn := .favoured } ∧
      (t .favor .b).arbiter = { pointer := .spot, turn := .others } ∧
      (t .favor .a).arbiter = { pointer := .zone .b, turn := .favoured } ∧
      ((t .equal .a).frontEnd.inFlight.map fun m => (m.requester, m.entry)) = some (.zone .b, 9) ∧
      (t .equal .a).mux = 0x49#8 ∧ (t .equal .a).queue = { inFlight := some (.checkpoint .a {}), waiting := [] } ∧
      (after (after opened .pinReset) (.restart 0 0 0)).plant.frontEnd.inFlight = none := by
  refine ⟨fun _ _ => ⟨rfl, rfl⟩, by decide +kernel⟩

/-- Zone A's entry 9 with the source 8, whose record holds a wood temperature. -/
def sourced : Plant :=
  (probeAt (probeAt opened 8 { zone := some .a, kind := .woodTemp, position := 8 } (valid 600)) 9
    { zone := some .a, position := 9, source := some 8 } (valid 100)).plant

theorem witness_MoistureRule :
    ((sourced.work.probes.get 9).source = some 8 ∧ (sourced.work.probes.get 8).zone.isSome = true ∧
      (sourced.work.probes.get 8).kind = .woodTemp ∧ sourced.records.get 8 = some (valid 600) ∧
      (valid 600).state = .valid ∧ (valid 600).lastAccepted = some 600) ∧
      ((opened.plant.work.probes.get 9).source = none ∧ (opened.plant.work.probes.get 9).zone = none) ∧
      ((moist 9).source = none ∧ (moist 9).zone = some .a ∧
        (let p := (withA { rest with aggregate := { rest.aggregate with zwt := some 300 } }).plant
         (p.unit .a).aggregate.zwt = some 300) ∧
        (warmed.plant.unit .a).aggregate.zwt = none ∧ (warmed.plant.unit .a).climate.db = { status := .good, value := some 200 }) ∧
      (opened.plant.work.species.get 0).k ≤ 500 ∧ knotsOk (opened.plant.work.species.get 0).knots.cells = true ∧
      (-- the code at the ends of the curve, at 20.0 degrees
        let r (l : Int) := opened.plant.readingOf {} .moisture l
        r 255 = { value := 300, flags := ⟨true, false, true⟩ } ∧ r 256 = { value := 300, flags := ⟨false, false, true⟩ } ∧
          r 768 = { value := 62, flags := ⟨false, false, true⟩ } ∧ r 769 = { value := 62, flags := ⟨false, true, true⟩ } ∧
          (r 257).value = 299 ∧ (r 767).value = 62) := by decide +kernel

theorem witness_AggregateRule :
    (∀ i : Fin 64, ((zoneC.plant.records.get i).bind ProbeRecord.lastAccepted).all (0 ≤ ·) = true) ∧
      (zoneC.plant.formAggregate .c).contributing ≠ [] ∧ (opened.plant.formAggregate .a).contributing = [] ∧
      (zoneC.plant.formAggregate .c).zwt = some 551 ∧ (opened.plant.formAggregate .a).zwt = none := by decide +kernel

theorem witness_ArbiterRule :
    (∀ x ∈ [Requester.zone .a, .zone .b, .zone .c, .spot],
      (favouring .favoured (.zone .d) [.a, .b, .c] true).requests x = true) ∧
      (∀ x ∈ [Requester.zone .a, .zone .b, .zone .c, .zone .d, .spot], opened.plant.requests x = false) ∧
      opened.plant.work.config.scan.mode = .equal ∧
      (favouring .favoured (.zone .d) [.a, .b, .c] true).work.config.scan = { mode := .favor, favoured := .b, spotEnabled := true } ∧
      (favouring .others (.zone .d) [.b] false).arbiter.turn = .others ∧
      (∀ x ∈ [Requester.zone .a, .zone .c, .zone .d, .spot],
        (favouring .others (.zone .d) [.b] false).requests x = false) := by decide +kernel

theorem witness_GroupStartRule :
    let p := (groupOf warmed).plant
    let s := plantOf (groupOf warmed) fun p =>
      { p with work := { p.work with entries := ⟨{ drying := some 0, cooldown := some 2 }, {}, {}, {}⟩ } }
    (groupOf warmed).Ready .go ∧ p.FirstEntry .a .drying 0 first ∧ p.fieldEnabled = true ∧
      (p.work.config.zones.get .a).startMask.host = true ∧ (p.work.config.zones.get .a).grouped = true ∧
      (p.ctx .a).state = .idle ∧ p.validate .a = none ∧ (p.work.config.zones.get .b).grouped = true ∧
      (p.ctx .b).state = .idle ∧ p.validate .b = none ∧
      -- B has a finding and A starts alone; B is started and waits for its proof, and A with it
      s.plant.validate .b = some ⟨.drying, .noEntry, none⟩ ∧ s.plant.validate .a = none ∧
      ((after s (.startZone env 0)).plant.ctx .a).state = .phase .drying ∧
      .zone .b .startFailed ∈ (after s (.startZone env 0)).plant.alerts ∧
      ((after (groupOf warmed) (.startZone env 0)).plant.ctx .a).state = .starting ∧
      ((after (groupOf warmed) (.startZone env 0)).plant.ctx .b).startSource = .group :=
  ⟨ready _ ⟨rfl, rfl, rfl, rfl⟩, loaded_first, by decide +kernel⟩

theorem witness_LockstepRule :
    let waiter (n : Nat) : ZoneUnit :=
      ctxOf drying fun c => { c with eligible := some .maxTime, waiting := true, waitCount := n }
    let limited (n : Nat) (b : ZoneUnit) : State :=
      configOf (locked (waiter n) b) fun c => { c with group := { c.group with waitLimit := 5 } }
    let lone : ZoneUnit := ctxOf drying fun c => { c with state := .phase .cooldown, stepIndex := some 2, activeCopy := some cool }
    let t (s : State) (c : Instr) := (after s c).plant
    (∀ a b k, (locked a b).Ready k) ∧
      (∀ b, (locked drying b).plant.InStep .a ∧ (locked held b).plant.InStep .a) ∧ (∀ y, ¬(locked lone lone).plant.InStep y) ∧
      -- HD and RM reach the other member, over DRYING and over COOLDOWN
      (∀ a ∈ [drying, lone], ∀ z ∈ [Zone.a, .b],
        ((locked a a).plant.work.config.zones.get z).grouped = true ∧ ((locked a a).plant.ctx z).state.inPhase = true ∧
          ((t (locked a a) (.hold env 0)).ctx z).state = .held) ∧
      (∀ ph ∈ [Phase.drying, .cooldown], ∀ z ∈ [Zone.a, .b],
        let h : ZoneUnit := ctxOf held fun c => { c with underlying := some ph }
        ((t (locked h h) (.resume env 0)).ctx z).state = .phase ph) ∧
      (locked drying drying).plant.work.config.group.holdTogether = true ∧
      (locked held held).plant.fieldEnabled = true ∧
      -- SK waits, and releases the set that waits
      ((t (locked drying drying) (.skip env 0)).ctx .a).waiting = true ∧
      (∀ z ∈ [Zone.a, .b], ((t (locked drying (waiter 0)) (.skip env 0)).ctx z).stepIndex = some 1) ∧
      -- the wait limit reached, and passed with the other still to wait and with it waiting
      ((limited 4 drying).mode = .running ∧ ((limited 4 drying).plant.ctx .a).minuteTimer.isSome = true ∧
        ((limited 4 drying).plant.ctx .a).state.inPhase = true ∧ ((limited 4 drying).plant.ctx .a).waiting = true ∧
        ((limited 4 drying).plant.ctx .a).eligible = some .maxTime) ∧
      ((t (limited 4 drying) (.minuteTimerExpiry .a)).ctx .a).waitCount = 5 ∧
      ((t (limited 4 drying) (.minuteTimerExpiry .a)).ctx .a).detached = false ∧
      (∀ b ∈ [drying, waiter 0], ((t (limited 5 b) (.minuteTimerExpiry .a)).ctx .a).detached = true) ∧
      ((t (limited 5 drying) (.minuteTimerExpiry .a)).ctx .b).stepIndex = some 0 ∧
      ((t (limited 5 (waiter 0)) (.minuteTimerExpiry .a)).ctx .b).stepIndex = some 1 := by
  refine ⟨fun _ _ k => ready k ⟨rfl, rfl, rfl, rfl⟩, fun _ => ⟨⟨rfl, rfl, .inl rfl⟩, rfl, rfl, .inr ⟨.inl rfl, rfl⟩⟩,
    fun y h => ?_, by decide +kernel⟩
  cases y <;> first | cases h.1; done | rcases h.2.2 with k | ⟨k | k, -⟩ <;> cases k

/-- `LockstepRule`'s clause for RM: a member whose LINE stays, and one that is hold-pending. -/
theorem witness_LockstepRule_release :
    let pending : ZoneUnit := ctxOf ramping fun c => { c with holdPending := true, holds := ⟨true, false⟩ }
    let lined : ZoneUnit := ctxOf held fun c => { c with holds := ⟨true, true⟩ }
    let t (s : State) := (after s (.resume env 0)).plant
    ((t (locked held drying)).ctx .a).state = .phase .drying ∧ (t (locked held drying)).ctx .b = drying.ctx ∧
      ((t (locked held lined)).ctx .b).holds = ⟨false, true⟩ ∧
      ((t (locked held pending)).ctx .b).holdPending = false := by decide +kernel

theorem witness_ZonePinsLaw : guarding.PinsLawful ∧ ∃ t, step guarding = .next t := by
  refine ⟨⟨fun _ => guarding_levelled, fun h => absurd rfl h, fun z => ?_⟩, _, rfl⟩
  unfold OutputState.Exclusive
  cases z <;> decide +kernel

/-- A request whose store write is in flight. -/
def storing : State := after opened (.changeCode env (List.replicate 8 9))

theorem witness_AlertAndQueueLaws :
    storing.plant.AlertsLawful ∧ storing.QueueLawful ∧
      (match step storing with | .next _ => true | _ => false) = true ∧ (after storing .pinReset).QueueLawful ∧
      (after storing .pinReset).mode ≠ .running := by
  refine ⟨⟨?_, ?_⟩, ⟨⟨?_, ?_⟩, ?_, ?_, fun h => absurd ?_ h⟩, ?_, ⟨⟨?_, ?_⟩, ?_, ?_, fun _ => ?_⟩, ?_⟩
  · unfold AlertsSorted
    decide +kernel
  all_goals decide +kernel

theorem witness_ZoneAndGateLaws :
    (∀ z, ((withA safe).plant.unit z).Consistent) ∧ (withA safe).Bounded ∧ (gated .barred).link.gate = .barred ∧
      (∀ rest, (gated .barred).pending ≠ .powerOnReset :: rest) ∧ ∃ t, step (withA safe) = .next t := by
  refine ⟨fun z => ?_, ⟨fun z => ?_, ?_, ?_⟩, rfl, fun _ h => (by cases h), _, rfl⟩
  · cases z <;> constructor <;> decide +kernel
  · cases z <;> refine ⟨?_, ?_, ?_, ?_⟩ <;> decide +kernel
  all_goals decide +kernel

/-- A part with one valid probe. -/
def probed : State := probeAt opened 9 (moist 9) (valid 118)

theorem probed_curves : probed.plant.CurvesLawful where
  stores := ⟨fun _ h => (by cases h; unfold SpeciesGroup.Legal; decide +kernel), fun _ h => by cases h⟩
  legal := by unfold SpeciesGroup.Legal; decide +kernel
  within := by
    intro i r _ h
    have e : ∀ i, probed.plant.records.get i = if (9 : Fin 64) = i then some (valid 118) else none := by decide +kernel
    rw [e] at h
    split at h
    · next hi =>
      subst hi
      cases h
      exact ⟨fun v hv => by cases hv; unfold SpeciesGroup.Spans; decide +kernel, fun v hv => by cases hv⟩
    · cases h
  flight := fun _ _ h => by cases h

theorem witness_ProbeLaws :
    probed.plant.CurvesLawful ∧ probed.plant.AddressesLawful ∧ ∃ t, step probed = .next t := by
  refine ⟨probed_curves, ⟨?_, fun _ h => ?_, fun _ h => by cases h⟩, _, rfl⟩
  · unfold AddressesDistinct
    decide +kernel
  · cases h
    unfold AddressesDistinct
    decide +kernel

theorem witness_NoRequesterLeft :
    let s : State := { busy with plant := { busy.plant with spot := .waiting 30 }, pending := [.measurementCompletion (List.replicate 16 480)] }
    s.plant.requests .spot = true ∧ s.plant.frontEnd.inFlight.isSome = true ∧
      (match step s with | .next t => t.plant.frontEnd.inFlight.map (·.entry) | _ => none) = some 30 := by decide +kernel

end Sys2Proof.Tests
end

section
/-! SUPPORT. Proofs: the operands of requests, the answers of a request that reads, is refused or stores, and the statement on the
requests that read. -/

namespace Sys2Proof.Machine

/-! ### Operands -/

@[simp] theorem zoneOf_code (z : Zone) : zoneOf z.code = some z := by cases z <;> rfl

theorem zoneOf_eq_none {n : Nat} (h : 4 ≤ n) : zoneOf n = none := by
  obtain ⟨m, rfl⟩ := Nat.exists_eq_add_of_le' h
  rfl

@[simp] theorem indexOf_val {n : Nat} (i : Fin n) : indexOf n i.val = some i := by simp [indexOf]

theorem indexOf_eq_none {n x : Nat} (h : n ≤ x) : indexOf n x = none := by simp [indexOf, h]

/-- A list of knots passes R32 exactly where no knot is above 999 and none is above one before it. -/
theorem knotsOk_iff (xs : List Nat) :
    knotsOk xs = true ↔ (∀ x ∈ xs, x ≤ 999) ∧ xs.Pairwise fun x y => y ≤ x := by
  induction xs with
  | nil => simp [knotsOk]
  | cons x xs ih =>
    cases xs with
    | nil => simp [knotsOk]
    | cons y rest =>
      rw [knotsOk, Bool.and_eq_true, Bool.and_eq_true, ih, decide_eq_true_iff, decide_eq_true_iff,
        List.forall_mem_cons (a := x), List.pairwise_cons (a := x)]
      constructor
      · rintro ⟨⟨hx, hy⟩, hle, hp⟩
        refine ⟨⟨hx, hle⟩, fun z hz => ?_, hp⟩
        rcases List.mem_cons.1 hz with rfl | hz
        · exact hy
        · exact ((List.pairwise_cons.1 hp).1 z hz).trans hy
      · rintro ⟨⟨hx, hle⟩, hall, hp⟩
        exact ⟨⟨hx, hall y List.mem_cons_self⟩, hle, hp⟩

/-! ### Answers -/

section Answers

variable {s : State} {kind : RequestKind} {f : Plant → Performance}

/-- A request that reads is answered OK with what it reads, on the plant as it stands. -/
theorem State.take_read (h : s.Ready kind) (env : Envelope) {c : Content} (hf : f s.plant = .read c) :
    s.take env kind (fun t => t.ask f) = s.answered kind env s.plant { status := .ok, content := c } := by
  rw [State.take_ask h, hf, Performance.read]

/-- A refused request is answered with its status alone, on the plant as it stands. -/
theorem State.take_refuse (h : s.Ready kind) (env : Envelope) {status : Status} (hf : f s.plant = .refuse status) :
    s.take env kind (fun t => t.ask f) = s.answered kind env s.plant { status := status } := by
  rw [State.take_ask h, hf, Performance.refuse]

/-- A performed request that stores leaves its plant with the host item queued, at the end of the event (R159). -/
theorem State.take_stored (h : s.Ready kind) (env : Envelope) {p : Plant} {item : SectionName}
    (hf : f s.plant = .stored p item) :
    s.take env kind (fun t => t.ask f) =
      s.answered kind env (settle s.plant (p.enqueue (.host item))) { status := .ok, stores := true } := by
  rw [State.take_ask h, hf, Performance.stored]

/-- A kind that is not gated can be taken in every gate state (R178). -/
theorem State.ready_of_not_gated (hk : kind.gated = false) (hr : s.mode = .running) (ht : s.link.txen = false)
    (hu : s.link.unanswered = none) : s.Ready kind :=
  ⟨hr, ht, hu, fun hg => by simp [hk] at hg⟩

end Answers

/-! ### What each reading request reads -/

/-- ST is answered with the report of the state as it stands (R180). -/
theorem State.take_status {s : State} (h : s.Ready .st) (env : Envelope) :
    s.take env .st performStatus =
      s.answered .st env s.plant { status := .ok, content := .status s.report } := by
  rw [State.take_ready h]
  exact State.note_hunting s .st env s.plant _

theorem performConfigurationRead_zone (p : Plant) (z : Zone) :
    performConfigurationRead 1 z.code p = .read (.zoneItem (p.work.config.zones.get z)) := by
  simp [performConfigurationRead]

theorem performConfigurationRead_window (p : Plant) (w : Fin 4) :
    performConfigurationRead 4 w.val p = .read (.window (p.work.config.windows.get w)) := by
  simp [performConfigurationRead]

theorem performConfigurationRead_line (p : Plant) (i : Fin 16) :
    performConfigurationRead 6 i.val p = .read (.line (p.work.config.lines.get i)) := by
  simp [performConfigurationRead]

/-- An item code above 6, or an index that the item does not have, is refused (R176). -/
theorem performConfigurationRead_undefined (p : Plant) {item n : Nat}
    (h : 7 ≤ item ∨ (item = 1 ∧ 4 ≤ n) ∨ (item = 4 ∧ 4 ≤ n) ∨ (item = 6 ∧ 16 ≤ n)) :
    performConfigurationRead item n p = .refuse .badValue := by
  obtain h | ⟨rfl, h⟩ | ⟨rfl, h⟩ | ⟨rfl, h⟩ := h
  · obtain ⟨m, rfl⟩ := Nat.exists_eq_add_of_le' h
    rfl
  · simp [performConfigurationRead, zoneOf_eq_none h]
  · simp [performConfigurationRead, indexOf_eq_none h]
  · simp [performConfigurationRead, indexOf_eq_none h]

theorem performSpeciesRead_index (p : Plant) (i : Fin 8) :
    performSpeciesRead i.val p = .read (.species (p.work.species.get i)) := by
  simp [performSpeciesRead]

theorem performSpeciesRead_undefined (p : Plant) {n : Nat} (h : 8 ≤ n) : performSpeciesRead n p = .refuse .badValue := by
  simp [performSpeciesRead, indexOf_eq_none h]

theorem performProbeRead_entry (p : Plant) (i : Fin 64) :
    performProbeRead i.val p = .read (.probe (p.work.probes.get i) (p.records.get i)) := by
  simp [performProbeRead]

theorem performProbeRead_undefined (p : Plant) {n : Nat} (h : 64 ≤ n) : performProbeRead n p = .refuse .badValue := by
  simp [performProbeRead, indexOf_eq_none h]

theorem performEntryTableRead_zone (p : Plant) (z : Zone) :
    performEntryTableRead z.code p = .read (.entries (p.work.entries.get z)) := by
  simp [performEntryTableRead]

theorem performEntryTableRead_undefined (p : Plant) {n : Nat} (h : 4 ≤ n) :
    performEntryTableRead n p = .refuse .badValue := by
  simp [performEntryTableRead, zoneOf_eq_none h]

theorem performRunRecordRead_page (p : Plant) (z : Zone) {n : Nat} (h : n ≤ 47) :
    performRunRecordRead z.code n p =
      .read (.runRecord (p.ctx z).dropped (p.ctx z).runRecord.length (((p.ctx z).runRecord.drop n).take 12)) := by
  simp [performRunRecordRead, h]

/-- RR outside A..D, or from a start position above 47, is refused (R99). -/
theorem performRunRecordRead_undefined (p : Plant) {y n : Nat} (h : 4 ≤ y ∨ 48 ≤ n) :
    performRunRecordRead y n p = .refuse .badValue := by
  unfold performRunRecordRead
  cases hy : zoneOf y with
  | none => rfl
  | some z =>
    have hn : ¬n ≤ 47 := by
      rcases h with h | h
      · simp [zoneOf_eq_none h] at hy
      · omega
    simp [hn]

/-! ### The statement -/

/-- Settles O4: each request is the one answer of `State.take_read` or `State.take_refuse`, with what its owner reads. -/
theorem readRequests : Obligations.ReadRequests := by
  unfold Obligations.ReadRequests
  refine ⟨fun s env => ⟨fun h => ?id, fun h => ?st⟩,
    fun s env h =>
      ⟨fun n => ?kiln, fun z => ?zone, fun n => ?group, fun n => ?scan, fun w => ?window, fun n => ?default,
        fun i => ?line, fun item n hn => ?undefinedItem⟩,
    fun s env hr ht hu => ?species,
    fun s env =>
      ⟨fun h => ⟨fun i => ?probe, fun n hn => ?noProbe⟩, fun h => ⟨fun z => ?entries, fun n hn => ?noEntries⟩,
        fun h => ?lines, fun h => ⟨fun z n hn => ?page, fun y n hn => ?noPage⟩, fun h => ?delay⟩⟩
  case id | kiln | group | scan | default | delay => exact congrArg _ (State.take_read h env rfl)
  case st => exact congrArg _ (State.take_status h env)
  case zone => exact congrArg _ (State.take_read h env (performConfigurationRead_zone _ z))
  case window => exact congrArg _ (State.take_read h env (performConfigurationRead_window _ w))
  case line => exact congrArg _ (State.take_read h env (performConfigurationRead_line _ i))
  case undefinedItem => exact congrArg _ (State.take_refuse h env (performConfigurationRead_undefined _ hn))
  case species =>
    have h : s.Ready .gr := State.ready_of_not_gated rfl hr ht hu
    exact ⟨fun i => congrArg _ (State.take_read h env (performSpeciesRead_index _ i)),
      fun n hn => congrArg _ (State.take_refuse h env (performSpeciesRead_undefined _ hn))⟩
  case probe => exact congrArg _ (State.take_read h env (performProbeRead_entry _ i))
  case noProbe => exact congrArg _ (State.take_refuse h env (performProbeRead_undefined _ hn))
  case entries => exact congrArg _ (State.take_read h env (performEntryTableRead_zone _ z))
  case noEntries => exact congrArg _ (State.take_refuse h env (performEntryTableRead_undefined _ hn))
  case lines =>
    exact ⟨s.plant.lines.map LineState.reading, congrArg _ (State.take_read h env rfl),
      fun i => by rw [Table.get_map, LineState.reading]⟩
  case page => exact congrArg _ (State.take_read h env (performRunRecordRead_page _ z hn))
  case noPage => exact congrArg _ (State.take_refuse h env (performRunRecordRead_undefined _ hn))

end Sys2Proof.Machine
end

section
/-! SUPPORT. Proofs: the species curve and the moisture arithmetic (R25 to R36), and the statement on it. -/

namespace Sys2Proof.Machine

/-! ### Classes (R25, R26) -/

theorem classify_moisture (l : Int) :
    (classify .moisture l = .short ↔ l < 160) ∧ (classify .moisture l = .open ↔ 832 < l) ∧
      (classify .moisture l = .inRange ↔ 160 ≤ l ∧ l ≤ 832) := by
  simp only [classify]
  split_ifs <;> simp <;> omega

theorem classify_woodTemp (l : Int) :
    (classify .woodTemp l = .open ↔ l < -300) ∧ (classify .woodTemp l = .short ↔ 1400 < l) ∧
      (classify .woodTemp l = .inRange ↔ -300 ≤ l ∧ l ≤ 1400) := by
  simp only [classify]
  split_ifs <;> simp <;> omega

/-! ### The cascade (R28, R29) -/

/-- Step 1 supplies `t`: the named source is an assigned WOOD_TEMP entry, VALID or HELD, with this last accepted value. -/
def Plant.NamedSource (p : Plant) (c : ProbeConfig) (t : Int) : Prop :=
  ∃ j r, c.source = some j ∧ (p.work.probes.get j).zone.isSome = true ∧ (p.work.probes.get j).kind = .woodTemp ∧
    p.records.get j = some r ∧ (r.state = .valid ∨ r.state = .held) ∧ r.lastAccepted = some t

/-- Step 2 supplies `t`: the wood temperature of the entry's zone. -/
def Plant.ZoneWood (p : Plant) (c : ProbeConfig) (t : Int) : Prop :=
  ∃ z, c.zone = some z ∧ (p.unit z).aggregate.zwt = some t

/-- Step 3 supplies `t`: the measured dry bulb of the entry's zone. -/
def Plant.MeasuredDryBulb (p : Plant) (c : ProbeConfig) (t : Int) : Prop :=
  ∃ z, c.zone = some z ∧ (p.unit z).climate.db.status = .good ∧ (p.unit z).climate.db.value = some t

/-- The first step that holds supplies `t`, step 4 with the mark that 20.0 degrees are assumed. -/
def Plant.Supplies (p : Plant) (c : ProbeConfig) (t : Int) (assumed : Bool) : Prop :=
  (assumed = false ∧
    (p.NamedSource c t ∨
      ((∀ x, ¬p.NamedSource c x) ∧ (p.ZoneWood c t ∨ ((∀ x, ¬p.ZoneWood c x) ∧ p.MeasuredDryBulb c t))))) ∨
  (assumed = true ∧ t = 200 ∧ ∀ x, ¬p.NamedSource c x ∧ ¬p.ZoneWood c x ∧ ¬p.MeasuredDryBulb c x)

theorem ProbeState.counts_iff (s : ProbeState) : s.counts = true ↔ s = .valid ∨ s = .held := by
  cases s <;> simp [ProbeState.counts]

theorem SensorRecord.usable_eq_some (r : SensorRecord) (t : Int) :
    r.usable = some t ↔ r.status = .good ∧ r.value = some t := by
  unfold SensorRecord.usable
  split <;> simp [*]

theorem Plant.sourceTemperature_eq_some (p : Plant) (c : ProbeConfig) (t : Int) :
    p.sourceTemperature c = some t ↔ p.NamedSource c t := by
  unfold Plant.sourceTemperature Plant.NamedSource
  cases hc : c.source with
  | none => simp
  | some j =>
    cases hr : p.records.get j with
    | none => simp [hr]
    | some r => simp [hr, ← ProbeState.counts_iff, and_assoc]

/-- The zone's wood temperature, where the entry has a zone (R29, step 2). -/
theorem Plant.zwt_eq_some (p : Plant) (c : ProbeConfig) (t : Int) :
    (c.zone.bind fun z => (p.unit z).aggregate.zwt) = some t ↔ p.ZoneWood c t := by
  simp [Plant.ZoneWood, Option.bind_eq_some_iff]

/-- The zone's usable dry bulb, where the entry has a zone (R29, step 3). -/
theorem Plant.dryBulb_eq_some (p : Plant) (c : ProbeConfig) (t : Int) :
    (c.zone.bind fun z => (p.unit z).climate.db.usable) = some t ↔ p.MeasuredDryBulb c t := by
  simp [Plant.MeasuredDryBulb, Option.bind_eq_some_iff, SensorRecord.usable_eq_some]

/-- The cascade tries its three temperatures in order, and takes 200 where none is present. -/
theorem Plant.cascade_eq (p : Plant) (c : ProbeConfig) :
    p.cascade c =
      match p.sourceTemperature c, c.zone.bind fun z => (p.unit z).aggregate.zwt,
        c.zone.bind fun z => (p.unit z).climate.db.usable with
      | some t, _, _ => (t, false)
      | none, some t, _ => (t, false)
      | none, none, some t => (t, false)
      | none, none, none => (200, true) := by
  unfold Plant.cascade
  cases p.sourceTemperature c with
  | some t => rfl
  | none =>
    cases c.zone with
    | none => rfl
    | some z =>
      simp only [Option.bind_some]
      cases (p.unit z).aggregate.zwt with
      | some t => rfl
      | none => cases (p.unit z).climate.db.usable <;> rfl

/-- The cascade answers the temperature that the first step that holds supplies. -/
theorem Plant.supplies_iff (p : Plant) (c : ProbeConfig) (t : Int) (assumed : Bool) :
    p.Supplies c t assumed ↔ p.cascade c = (t, assumed) := by
  rw [p.cascade_eq c]
  simp only [Plant.Supplies, ← p.sourceTemperature_eq_some, ← p.zwt_eq_some, ← p.dryBulb_eq_some]
  generalize p.sourceTemperature c = source
  generalize (c.zone.bind fun z => (p.unit z).aggregate.zwt) = wood
  generalize (c.zone.bind fun z => (p.unit z).climate.db.usable) = bulb
  cases source with
  | some u => cases assumed <;> simp [forall_and]
  | none =>
    cases wood with
    | some u => cases assumed <;> simp [forall_and]
    | none => cases bulb <;> cases assumed <;> simp [eq_comm]

/-! ### The correction (R30) -/

/-- The rounding of a correction is that of R30: to the nearest whole number, halves away from zero. -/
theorem roundHalfAway_eq (n : Int) (d : Nat) :
    roundHalfAway n d = if 0 ≤ n then (2 * n + d) / (2 * d) else -((-(2 * n) + d) / (2 * d)) := by
  unfold roundHalfAway roundHalfUp
  split_ifs with h
  · push_cast [Int.toNat_of_nonneg h]
    rfl
  · push_cast [Int.toNat_of_nonneg (by omega : 0 ≤ -n)]
    rw [mul_neg]

/-! ### The curve (R35) -/

/-- The curve of a legal group does not rise from one knot to the next. -/
theorem SpeciesGroup.Legal.knot_succ_le {g : SpeciesGroup} (h : g.Legal) {j : Nat} (hj : j ≤ 7) :
    g.knot (j + 1) ≤ g.knot j := by
  have hp := ((knotsOk_iff _).1 h.2).2
  have hl := g.knots.size
  have h1 : j + 1 < g.knots.cells.length := by omega
  have h0 : j < g.knots.cells.length := by omega
  unfold SpeciesGroup.knot
  rw [List.getD_eq_getElem _ _ h1, List.getD_eq_getElem _ _ h0]
  exact List.pairwise_iff_getElem.1 hp j (j + 1) h0 h1 (Nat.lt_succ_self j)

theorem SpeciesGroup.read_low (g : SpeciesGroup) {l : Int} (h : l ≤ 256) : g.read l = g.knot 0 := if_pos h

theorem SpeciesGroup.read_high (g : SpeciesGroup) {l : Int} (h : 768 ≤ l) : g.read l = g.knot 8 := by
  unfold SpeciesGroup.read
  rw [if_neg (by omega), if_pos h]

/-- Between the end knots the MC falls from the knot at or below L20 by the rounded part of the segment (R35). -/
theorem SpeciesGroup.Legal.read_between {g : SpeciesGroup} (hg : g.Legal) {l : Int} (hl : 256 < l) (hh : l < 768) :
    ∃ j f : Nat, j ≤ 7 ∧ f ≤ 63 ∧ l = 256 + 64 * j + f ∧
      g.read l = (g.knot j : Int) - (2 * (((g.knot j : Int) - g.knot (j + 1)) * f) + 64) / 128 := by
  have hj : (l - 256).toNat / 64 ≤ 7 := by omega
  refine ⟨(l - 256).toNat / 64, (l - 256).toNat % 64, hj, by omega, by omega, ?_⟩
  unfold SpeciesGroup.read roundHalfUp
  rw [if_neg (by omega), if_neg (by omega)]
  push_cast [Nat.cast_sub (hg.knot_succ_le hj)]
  rfl

/-! ### The statement -/

/-- Settles O50: the cascade is `Plant.supplies_iff`, and L20 is R30's by `roundHalfAway_eq`; the value is the curve's in its
three regions. -/
theorem moistureRule : Obligations.MoistureRule := by
  unfold Obligations.MoistureRule
  intro p c l g named zoned measured supplied awayFromZero
  have hs : ∀ t assumed, supplied t assumed ↔ p.cascade c = (t, assumed) := p.supplies_iff c
  obtain ⟨hShort, hOpen, hIn⟩ := classify_moisture l
  obtain ⟨hOpenT, hShortT, hInT⟩ := classify_woodTemp l
  refine ⟨hShort, hOpen, hIn, hOpenT, hShortT, hInT, rfl, ⟨_, _, (hs _ _).2 rfl⟩, fun t assumed ht => ?_⟩
  intro l20
  have hl : l20 = correctCode g.k l (clampInt (-200) 1200 t) := by
    unfold correctCode
    rw [roundHalfAway_eq]
    rfl
  have hr : p.readingOf c .moisture l =
      { value := g.read l20
        flags := { aboveRange := decide (l20 < 256), belowRange := decide (768 < l20), uncorrected := assumed } } := by
    rw [hl]
    unfold Plant.readingOf Plant.convert
    rw [(hs t assumed).1 ht]
  rw [hr]
  exact ⟨rfl, g.read_low, g.read_high, fun hg => hg.read_between⟩

end Sys2Proof.Machine
end

section
/-! SUPPORT. Proofs: GW, its refusals, the group it writes and the records it clamps (R32, R33). -/

namespace Sys2Proof.Machine

/-- What R32 asks of a GW's operands. -/
def SpeciesFieldsOk (group k : Nat) (knots : List Nat) : Prop :=
  group ≤ 7 ∧ k ≤ 500 ∧ (∀ x ∈ knots, x ≤ 999) ∧ knots.Pairwise fun x y => y ≤ x

/-- A GW whose operands R32 refuses is answered BAD_VALUE. -/
theorem performSpeciesWrite_refused {group k : Nat} {knots : List Nat} (h : ¬SpeciesFieldsOk group k knots) (p : Plant) :
    performSpeciesWrite group k knots p = .refuse .badValue := by
  unfold performSpeciesWrite
  by_cases hi : group ≤ 7
  · have hs : speciesOf k knots = none := by
      have hbad : ¬(k ≤ 500 ∧ knotsOk knots = true) := fun hok => h ⟨hi, hok.1, (knotsOk_iff knots).1 hok.2⟩
      simp [speciesOf, hbad]
    rw [hs]
    cases indexOf 8 group <;> rfl
  · rw [indexOf_eq_none (by omega)]

/-- A GW whose operands pass R32 stores the group they name. -/
theorem performSpeciesWrite_performed {group k : Nat} {knots : List Nat} (h : SpeciesFieldsOk group k knots)
    (h9 : knots.length = 9) (p : Plant) :
    performSpeciesWrite group k knots p =
      .stored (p.writeSpecies ⟨group, Nat.lt_succ_of_le h.1⟩ ⟨k, ⟨knots, h9⟩⟩) .species := by
  obtain ⟨hgroup, hk, hknots⟩ := h
  have hi : indexOf 8 group = some ⟨group, Nat.lt_succ_of_le hgroup⟩ := dif_pos _
  have hs : speciesOf k knots = some ⟨k, ⟨knots, h9⟩⟩ := by
    unfold speciesOf
    rw [dif_pos h9, if_pos ⟨hk, (knotsOk_iff knots).2 hknots⟩]
  rw [performSpeciesWrite, hi, hs]

/-- The record of an entry of the other kind, or of another group, stays. -/
theorem Plant.clampRecord_other {p : Plant} {i : Fin 8} {j : Fin 64}
    (h : (p.work.probes.get j).kind ≠ .moisture ∨ (p.work.probes.get j).group ≠ i) (g : SpeciesGroup) :
    p.clampRecord i g j = p.records.get j :=
  if_neg fun hm => h.elim (absurd hm.1) (absurd hm.2)

/-- The record of a MOISTURE entry of the group is clamped to the curve. -/
theorem Plant.clampRecord_member {p : Plant} {i : Fin 8} {j : Fin 64} (hk : (p.work.probes.get j).kind = .moisture)
    (hi : (p.work.probes.get j).group = i) (g : SpeciesGroup) :
    p.clampRecord i g j = (p.records.get j).map fun r => r.clampTo g :=
  if_pos ⟨hk, hi⟩

/-- A GW leaves every level as it was, since no level follows from the species table, the records or the queue. -/
theorem settle_writeSpecies {p : Plant} (h : p.Levelled) (i : Fin 8) (g : SpeciesGroup) (x : StoreItem) :
    settle p ((p.writeSpecies i g).enqueue x) = (p.writeSpecies i g).enqueue x := by
  apply settle_of_same h <;> rw [Plant.enqueue_eq] <;> rfl

/-- Settles O12, from the two forms of `performSpeciesWrite` and the records as `Plant.clampRecord` leaves them. -/
theorem speciesWriteRule : Obligations.SpeciesWriteRule := by
  unfold Obligations.SpeciesWriteRule
  intro s env group k knots h hl h9 legal
  refine ⟨fun hbad => ?refused, fun hok => ?performed⟩
  case refused => exact congrArg _ (State.take_refuse h env (performSpeciesWrite_refused hbad s.plant))
  case performed =>
    have ht := State.take_stored h env (performSpeciesWrite_performed hok h9 s.plant)
    rw [settle_writeSpecies hl] at ht
    refine ⟨⟨group, Nat.lt_succ_of_le hok.1⟩, ⟨k, ⟨knots, h9⟩⟩, _, rfl, rfl, rfl, congrArg _ ht,
      fun j => ⟨fun ho => ?_, fun hk hi => ?_⟩⟩
    · exact (Table.get_tabulate _ j).trans (Plant.clampRecord_other ho _)
    · exact (Table.get_tabulate _ j).trans (Plant.clampRecord_member hk hi _)

end Sys2Proof.Machine
end

section
/-! SUPPORT. Proofs: ZR, what it shows of a zone, and the statement on it (R54, R101, R113, R131, R144). -/

namespace Sys2Proof.Machine

theorem performZoneRead_zone (p : Plant) (z : Zone) : performZoneRead z.code p = .read (.zone (p.readZone z)) := by
  simp [performZoneRead]

theorem performZoneRead_undefined (p : Plant) {n : Nat} (h : 4 ≤ n) : performZoneRead n p = .refuse .badValue := by
  simp [performZoneRead, zoneOf_eq_none h]

/-- A grouped zone in STARTING shows the group's start timeout, any other zone its own (R106, R113). -/
theorem Plant.startTimeoutLeft_eq (p : Plant) (z : Zone) :
    p.startTimeoutLeft z =
      (if (p.work.config.zones.get z).grouped = true ∧ (p.ctx z).state = .starting then p.groupTimeout
        else (p.ctx z).startTimeout).map fun ms => (ms + 59999) / 60000 := by
  simp only [Plant.startTimeoutLeft, Plant.grouped, Plant.items, Timer.minutesLeft, Bool.and_eq_true, beq_iff_eq,
    apply_ite (Option.map fun ms => (ms + 59999) / 60000)]

/-- A target is shown in whole units of its setpoint (R118). -/
theorem reported_eq (target : Int) : reported target = (target * 2 + 60) / 120 := by rw [reported, mul_comm]

/-- The over-temperature condition needs a measured value that can be used, above maximum and margin together (R136). -/
theorem ZoneUnit.overtemp_iff (u : ZoneUnit) (kiln : KilnConfig) :
    u.overtemp kiln = true ↔
      ∃ x, u.climate.db.status = .good ∧ u.climate.db.value = some x ∧ kiln.maximumDb + kiln.overtempMargin < x := by
  simp only [ZoneUnit.overtemp, ZoneUnit.dbSatisfies_iff, decide_eq_true_eq, exists_and_left]

/-- Settles O5: a read zone is answered with `Plant.readZone`, whose items are the unit's own but for the start timeout, the
reported targets, the ramp and the conditions. -/
theorem zoneReads : Obligations.ZoneReads := by
  unfold Obligations.ZoneReads
  intro s env h
  refine ⟨fun n hn => ?refused, fun z => ⟨s.plant.readZone z, ?answered, ?items⟩⟩
  case refused => exact congrArg _ (State.take_refuse h env (performZoneRead_undefined _ hn))
  case answered => exact congrArg _ (State.take_read h env (performZoneRead_zone _ z))
  case items =>
    simp only [Plant.readZone, Plant.startTimeoutLeft_eq, reported_eq, ZoneUnit.ramping_iff, Plant.causeConditions,
      ZoneUnit.sensorFault, ZoneUnit.overtemp_iff, Plant.kiln, Plant.ctx_eq, Plant.grouped, Plant.items,
      Timer.minutesLeft, and_self]

end Sys2Proof.Machine
end

section
/-! SUPPORT. Proofs: the bytes of a reply, its start and its end (R162, R168, R172, R173), and the statement on them. -/

namespace Sys2Proof.Machine

/-- The frame of a reply, its content as the layouts spell it (R170, R173). -/
theorem Unanswered.reply_eq (u : Unanswered) (straps : Straps) :
    u.reply straps =
      let content := Layout.content u.answer.content
      let body :=
        [b8 straps.station, b8 (content.length + 4), lowerCase u.kind.1, lowerCase u.kind.2, b8 u.tag,
          b8 u.answer.status.code] ++ content
      [0xC3] ++ body ++ crcBytes (crcOf body) := by
  rw [Layout.content_eq]
  rfl

/-! ### The start -/

theorem State.listening_iff (s : State) : s.listening = true ↔ s.mode = .running ∧ s.link.txen = false := by
  simp [State.listening]

/-- No reply begins out of the running mode, during another reply, or with no request unanswered. -/
theorem State.startReply_none {s : State}
    (h : s.mode ≠ .running ∨ s.link.txen = true ∨ s.link.unanswered = none) : s.startReply = s := by
  unfold State.startReply
  split
  next u hl hu =>
    obtain ⟨hr, ht⟩ := s.listening_iff.1 hl
    simp [hr, ht, hu] at h
  next => rfl

/-- What the start of a reply does with the unanswered request of a part that runs and sends nothing. -/
theorem State.startReply_some {s : State} {u : Unanswered} (hr : s.mode = .running) (ht : s.link.txen = false)
    (hu : s.link.unanswered = some u) :
    s.startReply =
      if u.awaitsStore then s
      else if u.broadcast then
        if u.resets then s.takeReset .commanded else s.withLink fun l => { l with unanswered := none }
      else s.withLink fun l => { l with txen := true, sending := u.reply s.plant.straps } := by
  unfold State.startReply
  rw [s.listening_iff.2 ⟨hr, ht⟩, hu]

/-- COMMANDED_RESET, once it is due, is the reset that a broadcast RS takes: what was due does not outlive it (R183). -/
theorem execCommandedReset_due {s : State} (hr : s.mode = .running) :
    exec .commandedReset { s with link := { s.link with resetDue := true } } = .next (s.takeReset .commanded) :=
  congrArg _ (if_pos ⟨hr, rfl⟩)

/-! ### The end -/

/-- The end of a reply that is not being sent changes nothing. -/
theorem State.endReply_none {s : State} (h : s.mode ≠ .running ∨ s.link.txen = false) : s.endReply = s :=
  if_neg fun ⟨hr, ht⟩ => by simp [hr, ht] at h

/-- The end of the reply being sent ends its request (R168, R172). -/
theorem State.endReply_some {s : State} {u : Unanswered} (hr : s.mode = .running) (ht : s.link.txen = true)
    (hu : s.link.unanswered = some u) :
    s.endReply =
      { s with
        link :=
          { s.link with
            txen := false
            sending := []
            receiver := .hunt
            unanswered := none
            resetDue := s.link.resetDue || u.resets } } := by
  simp only [State.endReply, State.withLink, hr, ht, hu, and_self, if_true, LinkState.settleRequest]

/-! ### The statement -/

/-- Settles O46: the bytes are `Layout.content_eq`'s in their frame; the start is the one case of `State.startReply_some`
that the request's marks choose, and the end is `State.endReply_some`. -/
theorem replyRule : Obligations.ReplyRule := by
  unfold Obligations.ReplyRule
  refine ⟨Unanswered.reply_eq, fun s =>
    ⟨fun h => congrArg _ (State.startReply_none h), fun h => congrArg _ (State.endReply_none h),
      fun u hr hu => ⟨fun ht => ?start, fun ht => congrArg _ (State.endReply_some hr ht hu)⟩⟩⟩
  case start =>
    have hs : exec .replyStart s = .next s.startReply := rfl
    rw [hs, State.startReply_some hr ht hu]
    refine ⟨fun hw => ?waits, fun hw hb => ⟨fun hrs => ?broadcast, fun hrs => ?reset⟩, fun hw hb => ?addressed⟩
    case waits => rw [if_pos hw]
    case broadcast => simp only [hw, hb, hrs, Bool.false_eq_true, if_false, if_true, State.withLink]
    case reset =>
      simp only [hw, hb, hrs, Bool.false_eq_true, if_false, if_true]
      exact ⟨(execCommandedReset_due hr).symm, _, rfl, rfl⟩
    case addressed => simp only [hw, hb, Bool.false_eq_true, if_false, State.withLink]

end Sys2Proof.Machine
end

section
/-! SUPPORT. Proofs: the zone aggregate, from the entries that count to their ranking, the means and the lowest value (R49 to
R53), and the statement on it. -/

namespace Sys2Proof.Machine

/-! ### The entries that count (R50) -/

/-- Entry `i` counts for zone `z` with kind `kind`: its state is VALID or HELD and `v` its last accepted value. -/
def Plant.Counts (p : Plant) (z : Zone) (kind : ProbeKind) (i : Fin 64) (v : Int) : Prop :=
  (p.work.probes.get i).zone = some z ∧ (p.work.probes.get i).kind = kind ∧
    ∃ r, p.records.get i = some r ∧ (r.state = .valid ∨ r.state = .held) ∧ r.lastAccepted = some v

/-- The record of entry `i` carries ABOVE_RANGE as `flag` says. -/
def Plant.Flagged (p : Plant) (i : Fin 64) (flag : Bool) : Prop :=
  ∃ r, p.records.get i = some r ∧ r.flags.aboveRange = flag

/-- The last accepted value of an entry, 0 where it has none. -/
def Plant.lastValue (p : Plant) (i : Fin 64) : Int := ((p.records.get i).bind ProbeRecord.lastAccepted).getD 0

/-- The total of the last accepted values of entries. -/
def Plant.totalOf (p : Plant) (xs : List (Fin 64)) : Int := (xs.map p.lastValue).sum

section Counted

variable {p : Plant} {z : Zone} {kind : ProbeKind}

theorem Plant.Counts.lastValue_eq {i : Fin 64} {v : Int} (h : p.Counts z kind i v) : p.lastValue i = v := by
  obtain ⟨-, -, r, hr, -, hv⟩ := h
  simp [Plant.lastValue, hr, hv]

/-- What the counted list holds for entry `i`. -/
def Plant.countedAt (p : Plant) (z : Zone) (kind : ProbeKind) (i : Fin 64) : Option Ranked :=
  if (p.work.probes.get i).zone = some z ∧ (p.work.probes.get i).kind = kind then
    (p.records.get i).bind fun r =>
      if r.state.counts then r.lastAccepted.map fun v => ⟨i, v, r.flags.aboveRange⟩ else none
  else none

theorem Plant.counted_eq (p : Plant) (z : Zone) (kind : ProbeKind) :
    p.counted z kind = (List.finRange 64).filterMap (p.countedAt z kind) := by
  unfold Plant.counted Plant.countedAt
  congr 1
  funext i
  cases p.records.get i <;> rfl

theorem Plant.countedAt_eq_some {i : Fin 64} {x : Ranked} :
    p.countedAt z kind i = some x ↔ x.entry = i ∧ p.Counts z kind i x.value ∧ p.Flagged i x.aboveRange := by
  obtain ⟨j, v, flag⟩ := x
  simp only [Plant.countedAt, Option.ite_none_right_eq_some, Option.bind_eq_some_iff, Option.map_eq_some_iff,
    ProbeState.counts_iff, Ranked.mk.injEq]
  constructor
  · rintro ⟨⟨hz, hk⟩, r, hr, hs, w, hw, rfl, rfl, rfl⟩
    exact ⟨rfl, ⟨hz, hk, r, hr, hs, hw⟩, r, hr, rfl⟩
  · rintro ⟨rfl, ⟨hz, hk, r, hr, hs, hv⟩, q, hq, rfl⟩
    obtain rfl : r = q := Option.some.inj (hr.symm.trans hq)
    exact ⟨⟨hz, hk⟩, r, hr, hs, v, hv, rfl, rfl, rfl⟩

/-- The counted list holds the entries that count, each with its value and its flag. -/
theorem Plant.mem_counted {x : Ranked} :
    x ∈ p.counted z kind ↔ p.Counts z kind x.entry x.value ∧ p.Flagged x.entry x.aboveRange := by
  simp [Plant.counted_eq, Plant.countedAt_eq_some]

/-- The counted entries stand in rising order. -/
theorem Plant.counted_rising (p : Plant) (z : Zone) (kind : ProbeKind) :
    (p.counted z kind).Pairwise fun x y => x.entry < y.entry := by
  rw [Plant.counted_eq]
  refine List.Pairwise.filterMap _ (fun i j hij x hx y hy => ?_) (List.pairwise_lt_finRange 64)
  rwa [(Plant.countedAt_eq_some.1 hx).1, (Plant.countedAt_eq_some.1 hy).1]

/-- The entries of the counted list are those that count. -/
theorem Plant.mem_entries_counted {i : Fin 64} :
    i ∈ (p.counted z kind).map Ranked.entry ↔ ∃ v, p.Counts z kind i v := by
  simp only [List.mem_map, Plant.mem_counted]
  constructor
  · rintro ⟨x, ⟨hc, -⟩, rfl⟩
    exact ⟨x.value, hc⟩
  · rintro ⟨v, hc⟩
    obtain ⟨-, -, r, hr, -⟩ := id hc
    exact ⟨⟨i, v, r.flags.aboveRange⟩, ⟨hc, r, hr, rfl⟩, rfl⟩

theorem Plant.lastValue_of_mem_counted {x : Ranked} (h : x ∈ p.counted z kind) : p.lastValue x.entry = x.value :=
  (Plant.mem_counted.1 h).1.lastValue_eq

/-- The last accepted values of counted entries are the values they are counted with. -/
theorem Plant.lastValues_entries {xs : List Ranked} (h : ∀ x ∈ xs, x ∈ p.counted z kind) :
    (xs.map Ranked.entry).map p.lastValue = xs.map Ranked.value := by
  rw [List.map_map]
  exact List.map_congr_left fun x hx => Plant.lastValue_of_mem_counted (h x hx)

theorem Plant.totalOf_entries {xs : List Ranked} (h : ∀ x ∈ xs, x ∈ p.counted z kind) :
    p.totalOf (xs.map Ranked.entry) = (xs.map Ranked.value).sum :=
  congrArg List.sum (Plant.lastValues_entries h)

end Counted

/-! ### The ranking (R50) -/

/-- `y` ranks before `x`: it has the greater value, or the same value and the lower index. -/
def Ranked.Before (y x : Ranked) : Prop := x.value < y.value ∨ (x.value = y.value ∧ y.entry < x.entry)

theorem insertRanked_perm (x : Ranked) (ys : List Ranked) : (insertRanked x ys).Perm (x :: ys) := by
  induction ys with
  | nil => exact .refl _
  | cons y ys ih =>
    unfold insertRanked
    split_ifs
    · exact .refl _
    · exact (ih.cons y).trans (.swap x y ys)

/-- An entry of a higher index than all in a ranking is put in its place. -/
theorem insertRanked_pairwise {x : Ranked} {ys : List Ranked} (hs : ys.Pairwise Ranked.Before)
    (hx : ∀ y ∈ ys, y.entry < x.entry) : (insertRanked x ys).Pairwise Ranked.Before := by
  induction ys with
  | nil => exact List.pairwise_singleton _ _
  | cons y ys ih =>
    obtain ⟨hy, hys⟩ := List.pairwise_cons.1 hs
    unfold insertRanked
    split_ifs with h
    · refine List.pairwise_cons.2 ⟨List.forall_mem_cons.2 ⟨.inl h, fun w hw => .inl ?_⟩, hs⟩
      rcases hy w hw with hlt | ⟨heq, -⟩ <;> omega
    · refine List.pairwise_cons.2 ⟨fun w hw => ?_, ih hys fun w hw => hx w (List.mem_cons_of_mem y hw)⟩
      rcases List.mem_cons.1 ((insertRanked_perm x ys).mem_iff.1 hw) with rfl | hw
      · have hi := hx y List.mem_cons_self
        unfold Ranked.Before
        omega
      · exact hy w hw

/-- Entries put in their places one by one, in rising order, after those that already stand in a ranking. -/
theorem foldl_insertRanked_ranked_perm {xs : List Ranked} : ∀ {acc : List Ranked}, acc.Pairwise Ranked.Before →
    (∀ y ∈ acc, ∀ x ∈ xs, y.entry < x.entry) → xs.Pairwise (fun x y => x.entry < y.entry) →
    (xs.foldl (fun acc x => insertRanked x acc) acc).Pairwise Ranked.Before ∧
      (xs.foldl (fun acc x => insertRanked x acc) acc).Perm (xs ++ acc) := by
  induction xs with
  | nil => exact fun hs _ _ => ⟨hs, .refl _⟩
  | cons x xs ih =>
    intro acc hs hbelow hrise
    obtain ⟨hx, hxs⟩ := List.pairwise_cons.1 hrise
    have hlow : ∀ y ∈ insertRanked x acc, ∀ w ∈ xs, y.entry < w.entry := fun y hy w hw =>
      (List.mem_cons.1 ((insertRanked_perm x acc).mem_iff.1 hy)).elim (fun e => e ▸ hx w hw)
        fun hy => hbelow y hy w (List.mem_cons_of_mem x hw)
    obtain ⟨hsorted, hperm⟩ := ih (insertRanked_pairwise hs fun y hy => hbelow y hy x List.mem_cons_self) hlow hxs
    exact ⟨hsorted, hperm.trans (((insertRanked_perm x acc).append_left xs).trans List.perm_middle)⟩

/-- The ranking of R50 holds the entries it is made from, in the order of their rank. -/
theorem rank_of_rising {xs : List Ranked} (h : xs.Pairwise fun x y => x.entry < y.entry) :
    (rank xs).Pairwise Ranked.Before ∧ (rank xs).Perm xs := by
  have hr := foldl_insertRanked_ranked_perm (acc := []) .nil (by simp) h
  rwa [List.append_nil] at hr

/-! ### The lowest value and the means (R50 to R52) -/

theorem lowest_eq_min? (xs : List Ranked) : lowest xs = (xs.map Ranked.value).min? := by
  induction xs with
  | nil => rfl
  | cons x xs ih =>
    rw [lowest, ih, List.map_cons, List.min?_cons]
    cases (xs.map Ranked.value).min? <;> rfl

theorem roundHalfAway_of_neg {n : Int} (h : n < 0) (d : Nat) : roundHalfAway n d = -((-(2 * n) + d) / (2 * d)) := by
  rw [roundHalfAway_eq, if_neg (not_le.2 h)]

theorem roundHalfAway_of_nonneg {n : Int} (h : 0 ≤ n) (d : Nat) : roundHalfAway n d = (2 * n + d) / (2 * d) := by
  rw [roundHalfAway_eq, if_pos h]

/-! ### The aggregate -/

section Formed

variable {p : Plant} {z : Zone}

/-- The ranking of the valid set (R50). -/
def Plant.ranked (p : Plant) (z : Zone) : List Ranked := rank (p.counted z .moisture)

theorem Plant.ranked_perm (p : Plant) (z : Zone) : (p.ranked z).Perm (p.counted z .moisture) :=
  (rank_of_rising (p.counted_rising z .moisture)).2

theorem Plant.mem_ranked_entries {i : Fin 64} : i ∈ (p.ranked z).map Ranked.entry ↔ ∃ v, p.Counts z .moisture i v := by
  rw [← Plant.mem_entries_counted, ((p.ranked_perm z).map _).mem_iff]

theorem Plant.length_ranked_entries (p : Plant) (z : Zone) :
    ((p.ranked z).map Ranked.entry).length = (p.counted z .moisture).length := by
  rw [List.length_map, (p.ranked_perm z).length_eq]

/-- Down the ranking the last accepted values fall, and the indices rise among equal values. -/
theorem Plant.ranked_falling (p : Plant) (z : Zone) :
    ((p.ranked z).map Ranked.entry).Pairwise fun i j =>
      p.lastValue j < p.lastValue i ∨ (p.lastValue j = p.lastValue i ∧ i.val < j.val) := by
  refine List.pairwise_map.2 ((rank_of_rising (p.counted_rising z .moisture)).1.imp_of_mem fun {x y} hx hy h => ?_)
  rwa [Plant.lastValue_of_mem_counted ((p.ranked_perm z).mem_iff.1 hx),
    Plant.lastValue_of_mem_counted ((p.ranked_perm z).mem_iff.1 hy)]

/-- The entries of the CMC: the first `k` of the ranking, or none for a zone with too few (R50). -/
def Plant.contributors (p : Plant) (z : Zone) : List Ranked :=
  if (p.counted z .moisture).length < (p.items z).nmin then [] else (p.ranked z).take (p.items z).k

theorem Plant.mem_counted_of_contributors {x : Ranked} (h : x ∈ p.contributors z) : x ∈ p.counted z .moisture := by
  unfold Plant.contributors at h
  split_ifs at h
  · exact absurd h List.not_mem_nil
  · exact (p.ranked_perm z).mem_iff.1 (List.mem_of_mem_take h)

theorem Plant.formAggregate_eq (p : Plant) (z : Zone) :
    p.formAggregate z =
      { count := (p.counted z .moisture).length
        cmc :=
          if (p.contributors z).isEmpty then none
          else
            some
              { value := roundHalfAway ((p.contributors z).map Ranked.value).sum (p.contributors z).length
                aboveRange := (p.contributors z).any Ranked.aboveRange }
        dmc := lowest (p.counted z .moisture)
        contributing := (p.contributors z).map Ranked.entry
        zwt :=
          if (p.counted z .woodTemp).isEmpty then none
          else some (roundHalfAway ((p.counted z .woodTemp).map Ranked.value).sum (p.counted z .woodTemp).length)
        blind := decide ((p.counted z .moisture).length < (p.items z).nmin) } := by
  by_cases h : (p.counted z .moisture).length < (p.items z).nmin <;>
    simp [Plant.formAggregate, Plant.contributors, Plant.ranked, h]

theorem Plant.aggregate_contributing (p : Plant) (z : Zone) :
    (p.formAggregate z).contributing =
      if ((p.ranked z).map Ranked.entry).length < (p.items z).nmin then []
      else ((p.ranked z).map Ranked.entry).take (p.items z).k := by
  have hc : (p.formAggregate z).contributing = (p.contributors z).map Ranked.entry := by rw [p.formAggregate_eq]
  rw [hc, Plant.length_ranked_entries]
  unfold Plant.contributors
  split_ifs
  · rfl
  · exact List.map_take

theorem Plant.aggregate_cmc_none (h : (p.formAggregate z).contributing = []) : (p.formAggregate z).cmc = none := by
  rw [p.formAggregate_eq] at h ⊢
  exact if_pos (List.isEmpty_iff.2 (List.map_eq_nil_iff.1 h))

/-- The flag of the CMC says whether a contributing entry carries ABOVE_RANGE (R51). -/
theorem Plant.any_aboveRange_iff (p : Plant) (z : Zone) :
    (p.contributors z).any Ranked.aboveRange = true ↔
      ∃ i ∈ (p.formAggregate z).contributing, p.Flagged i true := by
  rw [p.formAggregate_eq, List.any_eq_true]
  constructor
  · rintro ⟨x, hx, hf⟩
    exact ⟨x.entry, List.mem_map_of_mem hx, hf ▸ (Plant.mem_counted.1 (Plant.mem_counted_of_contributors hx)).2⟩
  · rintro ⟨i, hi, r, hr, hf⟩
    obtain ⟨x, hx, rfl⟩ := List.mem_map.1 hi
    obtain ⟨q, hq, hx'⟩ := (Plant.mem_counted.1 (Plant.mem_counted_of_contributors hx)).2
    obtain rfl : r = q := Option.some.inj (hr.symm.trans hq)
    exact ⟨x, hx, hx'.symm.trans hf⟩

/-- The CMC of contributing entries with no negative value is their mean, halves upward (R50). -/
theorem Plant.aggregate_cmc_some (hpos : ∀ i v, p.Counts z .moisture i v → 0 ≤ v)
    (h : (p.formAggregate z).contributing ≠ []) :
    (p.formAggregate z).cmc =
      some
        { value :=
            (2 * p.totalOf (p.formAggregate z).contributing + (p.formAggregate z).contributing.length) /
              (2 * (p.formAggregate z).contributing.length)
          aboveRange := (p.contributors z).any Ranked.aboveRange } := by
  rw [p.formAggregate_eq] at h ⊢
  have hne : ¬(p.contributors z).isEmpty = true := fun he => h (List.map_eq_nil_iff.2 (List.isEmpty_iff.1 he))
  have hsum : 0 ≤ ((p.contributors z).map Ranked.value).sum := List.sum_nonneg fun v hv => by
    obtain ⟨x, hx, rfl⟩ := List.mem_map.1 hv
    exact hpos _ _ (Plant.mem_counted.1 (Plant.mem_counted_of_contributors hx)).1
  simp only [if_neg hne, roundHalfAway_of_nonneg hsum, Plant.totalOf_entries fun _ => Plant.mem_counted_of_contributors,
    List.length_map]

theorem Plant.ranked_values_perm (p : Plant) (z : Zone) :
    (((p.ranked z).map Ranked.entry).map p.lastValue).Perm ((p.counted z .moisture).map Ranked.value) := by
  rw [Plant.lastValues_entries fun x hx => (p.ranked_perm z).mem_iff.1 hx]
  exact (p.ranked_perm z).map _

theorem Plant.aggregate_dmc_none (h : (p.ranked z).map Ranked.entry = []) : (p.formAggregate z).dmc = none := by
  have hv := p.ranked_values_perm z
  rw [h] at hv
  rw [p.formAggregate_eq, lowest_eq_min?, ← hv.nil_eq]
  rfl

/-- The DMC is the lowest of the last accepted values of the valid set (R51). -/
theorem Plant.aggregate_dmc_eq_some {d : Int} :
    (p.formAggregate z).dmc = some d ↔
      (∃ i ∈ (p.ranked z).map Ranked.entry, p.lastValue i = d) ∧
        ∀ i ∈ (p.ranked z).map Ranked.entry, d ≤ p.lastValue i := by
  rw [p.formAggregate_eq, lowest_eq_min?, ← List.forall_mem_map, ← List.mem_map]
  simp only [List.min?_eq_some_iff, (p.ranked_values_perm z).mem_iff]

/-! ### The wood temperature (R52) -/

theorem Plant.aggregate_zwt_none (h : (p.counted z .woodTemp).map Ranked.entry = []) : (p.formAggregate z).zwt = none := by
  rw [p.formAggregate_eq]
  exact if_pos (List.isEmpty_iff.2 (List.map_eq_nil_iff.1 h))

/-- The ZWT is the mean of the counted wood temperatures, rounded away from zero (R52). -/
theorem Plant.aggregate_zwt_some (h : (p.counted z .woodTemp).map Ranked.entry ≠ []) :
    (p.formAggregate z).zwt =
      some
        (roundHalfAway (p.totalOf ((p.counted z .woodTemp).map Ranked.entry))
          ((p.counted z .woodTemp).map Ranked.entry).length) := by
  rw [p.formAggregate_eq, Plant.totalOf_entries fun _ hx => hx, List.length_map]
  exact if_neg fun he => h (List.map_eq_nil_iff.2 (List.isEmpty_iff.1 he))

end Formed

/-! ### PROBE_SHORTAGE (R53) -/

/-- The aggregate of a pass complete is replaced, and PROBE_SHORTAGE raised where the zone is newly blind (R49, R53). -/
theorem Plant.replaceAggregate_eq (p : Plant) (z : Zone) :
    p.replaceAggregate z =
      (p.put z { p.unit z with aggregate := p.formAggregate z }).raiseIf
        ((!(p.unit z).aggregate.blind && (p.formAggregate z).blind) && decide ((p.ctx z).state ≠ .idle))
        (.zone z .probeShortage) := by
  have hidle : ((p.ctx z).state != .idle) = decide ((p.ctx z).state ≠ .idle) := Bool.eq_iff_iff.2 (by simp)
  unfold Plant.replaceAggregate Plant.raiseIf
  simp only [Plant.zone_eq_put, hidle]

/-! ### The statement -/

/-- Settles O51: the ranking is the counted list as `insertRanked` sorts it, with the CMC and the DMC over it; the ZWT is the
mean of the counted wood temperatures in entry order. -/
theorem aggregateRule : Obligations.AggregateRule := by
  unfold Obligations.AggregateRule
  intro p z items a counts value total hpos
  refine ⟨⟨(p.ranked z).map Ranked.entry, fun i => Plant.mem_ranked_entries, p.ranked_falling z, ?count, ?blind,
      p.aggregate_contributing z, Plant.aggregate_cmc_none,
      fun h => ⟨_, Plant.aggregate_cmc_some hpos h, p.any_aboveRange_iff z⟩, Plant.aggregate_dmc_none,
      fun d => Plant.aggregate_dmc_eq_some⟩,
    ⟨(p.counted z .woodTemp).map Ranked.entry, ?nodup, fun i => Plant.mem_entries_counted, Plant.aggregate_zwt_none,
      fun h h0 => ?warm, fun h0 => ?cold⟩,
    p.replaceAggregate_eq z⟩
  case count =>
    rw [p.length_ranked_entries]
    exact congrArg Aggregate.count (p.formAggregate_eq z)
  case blind =>
    rw [p.length_ranked_entries]
    exact congrArg Aggregate.blind (p.formAggregate_eq z)
  case nodup => exact List.pairwise_map.2 ((p.counted_rising z .woodTemp).imp fun h => h.ne)
  case warm => exact (Plant.aggregate_zwt_some h).trans (congrArg some (roundHalfAway_of_nonneg h0 _))
  case cold =>
    have h : (p.counted z .woodTemp).map Ranked.entry ≠ [] := fun he => by simp [total, he] at h0
    exact (Plant.aggregate_zwt_some h).trans (congrArg some (roundHalfAway_of_neg h0 _))

end Sys2Proof.Machine
end

section
/-! SUPPORT. Proofs: SC and SN, the cursor (R62, R64, R72). -/

namespace Sys2Proof.Machine

/-! ### The cursor through a restart -/

@[simp] theorem Plant.raiseIf_cursor (p : Plant) (b : Bool) (a : Alert) : (p.raiseIf b a).cursor = p.cursor := by
  unfold Plant.raiseIf; split <;> rfl

theorem Plant.eachZone_cursor {f : Plant → Zone → Plant} (h : ∀ q z, (f q z).cursor = q.cursor) (p : Plant) :
    (p.eachZone f).cursor = p.cursor := by
  rw [Plant.eachZone_eq, h, h, h, h]

theorem Plant.restoreZone_cursor (p : Plant) (z : Zone) : (p.restoreZone z).cursor = p.cursor := by
  unfold Plant.restoreZone
  split
  · exact (Plant.Kept.queueCheckpoint p z).cursor
  · split <;> rfl

/-- A delivery can do to the rest of the part what the sequencers' operations can. -/
theorem Plant.Kept.deliver (before after : Plant) (role : LineRole) (z : Zone) (pressed : Bool) :
    after.Kept (before.deliver after role z pressed) := by
  unfold Plant.deliver
  split
  · exact .ite ((Plant.Kept.foldl _ (fun q y => .changeCauses q y _) _ after).trans
      (.foldl _ (fun q y => .evaluateStart q y) _ _)) (.refl after)
  · exact .evaluateStart after z
  · exact .ite (.startEvent after _ _) (.refl after)
  · split
    · exact .foldl _ (fun q y => .joinHold q y _) _ after
    · exact (Plant.Kept.foldl _ (fun q y => .ite (.leaveHold q y _) (.refl q)) _ after).trans (.judgeRelease _)
    · exact .refl after
  · exact .refl after

theorem Plant.takeLevel_cursor (p : Plant) (i : Fin 16) (level : Bool) : (p.takeLevel i level).cursor = p.cursor := by
  unfold Plant.takeLevel
  dsimp only
  split
  · exact (Plant.Kept.deliver _ _ _ _ _).cursor
  · rfl

theorem Plant.beginSettling_cursor (p : Plant) (i : Fin 16) : (p.beginSettling i).cursor = p.cursor := by
  unfold Plant.beginSettling
  dsimp only
  split
  · exact Plant.takeLevel_cursor _ i _
  · rfl

theorem Plant.settleLines_cursor (p : Plant) : p.settleLines.cursor = p.cursor := by
  unfold Plant.settleLines
  induction List.finRange 16 generalizing p with
  | nil => rfl
  | cons i is ih =>
    rw [List.foldl_cons, ih]
    split
    · rfl
    · exact p.beginSettling_cursor i

theorem Plant.endPass_cursor (p : Plant) (z : Zone) : (p.endPass z).cursor = p.cursor := by
  have hq : ((p.pass z fun s => { s with progress := none }).replaceAggregate z).cursor = p.cursor := by
    rw [Plant.passAggregate_eq, Plant.raiseIf_cursor]
    rfl
  unfold Plant.endPass
  dsimp only
  split
  · exact (Plant.Kept.evaluateStart _ z).cursor.trans hq
  · exact (Plant.Kept.evaluate _ z).cursor.trans hq

theorem Plant.startPass_cursor (p : Plant) (z : Zone) : (p.startPass z).cursor = p.cursor := by
  unfold Plant.startPass
  dsimp only
  split
  · exact p.endPass_cursor z
  · rfl

theorem Plant.completePass_cursor (p : Plant) (z : Zone) : (p.completePass z).cursor = p.cursor := by
  unfold Plant.completePass
  dsimp only
  split
  · exact (Plant.startPass_cursor _ z).trans (p.endPass_cursor z)
  · exact p.endPass_cursor z

theorem Plant.grant_cursor (fuel : Nat) (p : Plant) : (p.grant fuel).cursor = p.cursor := by
  induction fuel generalizing p with
  | zero => rfl
  | succ fuel ih =>
    unfold Plant.grant
    split
    · rfl
    · split
      · rfl
      · split <;> rfl
      · split
        · rfl
        · split
          · exact (ih _).trans (p.completePass_cursor _)
          · rfl

theorem Plant.markUnreachable_cursor (p : Plant) : p.markUnreachable.cursor = p.cursor := Plant.raiseIf_cursor _ _ _

theorem Plant.startTimers_cursor (p : Plant) (z : Zone) : (p.startTimers z).cursor = p.cursor := rfl

theorem Plant.settlePins_cursor (p : Plant) : p.settlePins.cursor = p.cursor := rfl

@[simp] theorem Plant.raise_cursor (p : Plant) (a : Alert) : (p.raise a).cursor = p.cursor := rfl

/-- The cursor stands at 0 when a reset ends (R72). -/
theorem Plant.restart_cursor (p : Plant) (straps : Straps) : (p.restart straps).cursor = 0 := by
  unfold Plant.restart
  rw [Plant.settlePins_cursor, Plant.arbitrate, Plant.grant_cursor, Plant.eachZone_cursor Plant.startPass_cursor,
    Plant.settleLines_cursor, Plant.eachZone_cursor Plant.restoreZone_cursor, Plant.eachZone_cursor Plant.startTimers_cursor,
    Plant.raise_cursor, Plant.markUnreachable_cursor, Plant.raiseIf_cursor]
  rfl

/-! ### SC and SN -/

theorem performSetCursor_index (i : Fin 128) (p : Plant) : performSetCursor i.val p = .ok { p with cursor := i } := by
  simp [performSetCursor]

theorem performSetCursor_undefined (p : Plant) {n : Nat} (h : 128 ≤ n) : performSetCursor n p = .refuse .badValue := by
  simp [performSetCursor, indexOf_eq_none h]

/-- The cursor moves one further, and from 127 to 0 (R63, R64). -/
theorem nextCursor_val (c : Fin 128) : (nextCursor c).val = if c.val = 127 then 0 else c.val + 1 := by
  simp only [nextCursor]
  split <;> omega

/-- A performed request leaves its plant at the end of the event. -/
theorem State.take_performed {s : State} {kind : RequestKind} {f : Plant → Performance} (h : s.Ready kind)
    (env : Envelope) {q : Plant} {a : Answer} (hf : f s.plant = .performed q a) :
    s.take env kind (fun t => t.ask f) = s.answered kind env (settle s.plant q) a := by
  rw [State.take_ask h, hf]

/-- An event that leaves everything that the levels follow from, and queues an item, leaves the levels. -/
theorem settle_enqueue_of_same {p q : Plant} (h : p.Levelled) (hz : q.zones = p.zones) (hl : q.lines = p.lines)
    (hf : q.fieldEnabled = p.fieldEnabled) (hc : q.work.config = p.work.config) (ha : q.alerts = p.alerts)
    (ht : q.attn = p.attn) (x : StoreItem) : settle p (q.enqueue x) = q.enqueue x := by
  rw [Plant.enqueue_eq]
  exact settle_of_same h hz hl hf (congrArg Configuration.lines hc)
    (congrArg (fun c => c.kiln.safeVent) hc) ha ht

/-- No level follows from the cursor. -/
theorem settle_cursor {p : Plant} (h : p.Levelled) (c : Fin 128) :
    settle p { p with cursor := c } = { p with cursor := c } :=
  settle_of_same h rfl rfl rfl rfl rfl rfl rfl

/-- Settles O8: SC and SN move the cursor, which no level follows from, and a restart ends with the cursor that its reset has
put to 0. -/
theorem cursorRule : Obligations.CursorRule := by
  unfold Obligations.CursorRule
  refine ⟨fun s env => ⟨fun hr ht hu hl => ⟨fun i => ?set, fun n hn => ?undefined⟩, fun sta bd mxs hk => ?reset⟩,
    fun s env hr ht hu hl => ⟨nextCursor s.plant.cursor, nextCursor_val _, ?read⟩⟩
  case set =>
    have hs : s.Ready .sc := State.ready_of_not_gated rfl hr ht hu
    have h := State.take_performed hs env (performSetCursor_index i s.plant)
    rw [settle_cursor hl] at h
    exact congrArg _ h
  case undefined =>
    have hs : s.Ready .sc := State.ready_of_not_gated rfl hr ht hu
    exact congrArg _ (State.take_refuse hs env (performSetCursor_undefined _ hn))
  case reset =>
    obtain ⟨k, hk⟩ := hk
    refine ⟨_, rfl, ?_⟩
    simp only [State.endReset, hk]
    exact Plant.restart_cursor _ _
  case read =>
    have hs : s.Ready .sn := State.ready_of_not_gated rfl hr ht hu
    have h := State.take_performed (f := performReadRecord) hs env rfl
    rw [settle_cursor hl] at h
    exact congrArg _ h

end Sys2Proof.Machine
end

section
/-! SUPPORT. Proofs: SW, the consistency of a record, the guard and the write at the cursor (R58, R63, R65). -/

namespace Sys2Proof.Machine

/-! ### The offered record (R58) -/

theorem yesNoOf_eq (n : Nat) : yesNoOf n = if n ≤ 1 then some (decide (n = 0)) else none := by
  rcases n with _ | _ | n <;> simp [yesNoOf]

theorem sensorUseOf_eq (n : Nat) :
    sensorUseOf n = if n ≤ 1 then some (if n = 0 then .used else .notUsed) else none := by
  rcases n with _ | _ | n <;> simp [sensorUseOf]

theorem stepRecordOf_consistent {r : RawStep} (h : r.Consistent) : stepRecordOf r = some r.record := by
  obtain ⟨hl, ⟨hd0, hd1⟩, ⟨hp0, hp1, hp2⟩, hr, hm, hs, ⟨ht0, ht1, ht2, ht3⟩, hf⟩ := h
  unfold stepRecordOf
  rw [yesNoOf_eq, sensorUseOf_eq, if_pos hl, if_pos hs]
  exact if_pos ⟨hd0, hd1, hp0, hp1, hp2, hr, hm, ht0, ht1, ht2, ht3, hf⟩

theorem stepRecordOf_inconsistent {r : RawStep} (h : ¬r.Consistent) : stepRecordOf r = none := by
  unfold stepRecordOf
  rw [yesNoOf_eq, sensorUseOf_eq]
  by_cases hl : r.last ≤ 1
  · by_cases hs : r.sensor ≤ 1
    · rw [if_pos hl, if_pos hs]
      refine if_neg fun hc => h ?_
      obtain ⟨hd0, hd1, hp0, hp1, hp2, hr, hm, ht0, ht1, ht2, ht3, hf⟩ := hc
      exact ⟨hl, ⟨hd0, hd1⟩, ⟨hp0, hp1, hp2⟩, hr, hm, hs, ⟨ht0, ht1, ht2, ht3⟩, hf⟩
    · rw [if_neg hs]
      split <;> simp_all
  · rw [if_neg hl]

/-! ### The guard (R65) -/

theorem Phase.mem_order (ph : Phase) : ph ∈ Phase.order := by cases ph <;> decide

theorem Plant.guarded_iff (p : Plant) (i : Fin 128) :
    p.guarded i = true ↔ ∃ z ph, (p.ctx z).state.guards = true ∧ i ∈ p.extent z ph := by
  simp [Plant.guarded, Zone.mem_order, Phase.mem_order]

theorem guardedWriteOk_iff (present offered : Option StepRecord) :
    guardedWriteOk present offered = true ↔ ∃ x y, present = some x ∧ offered = some y ∧ x.last = y.last := by
  cases present with
  | none => simp [guardedWriteOk]
  | some x =>
    cases offered with
    | none => simp [guardedWriteOk]
    | some y => simpa [guardedWriteOk] using eq_comm

/-! ### SW (R63) -/

/-- A consistent record, or a blank one, goes on to the guard. -/
theorem performWriteRecord_consistent {r : Option RawStep} (h : ∀ x, r = some x → x.Consistent) (p : Plant) :
    performWriteRecord r p = p.offer (r.map RawStep.record) := by
  cases r with
  | none => rfl
  | some x => simp only [performWriteRecord, stepRecordOf_consistent (h x rfl), Option.map_some]

theorem performWriteRecord_inconsistent {x : RawStep} (h : ¬x.Consistent) (p : Plant) :
    performWriteRecord (some x) p = .refuse .badValue := by
  simp only [performWriteRecord, stepRecordOf_inconsistent h]

/-- The guard of R65 refuses the record offered for the target at the cursor. -/
def Plant.refusesTarget (p : Plant) (record : Option StepRecord) : Bool :=
  p.guarded p.cursor && !guardedWriteOk (p.work.records.get p.cursor) record

theorem Plant.offer_refused {p : Plant} {record : Option StepRecord} (h : p.refusesTarget record = true) :
    p.offer record = .refuse .wrongState := if_pos h

theorem Plant.offer_performed {p : Plant} {record : Option StepRecord} (h : ¬p.refusesTarget record = true) :
    p.offer record = .stored (p.writeTarget record) .schedule .ok (.recordWritten p.cursor) := if_neg h

theorem Plant.refusesTarget_iff (p : Plant) (record : Option StepRecord) :
    p.refusesTarget record = true ↔
      (∃ z ph, (p.ctx z).state.guards = true ∧ p.cursor ∈ p.extent z ph) ∧
        ¬∃ x y, p.work.records.get p.cursor = some x ∧ record = some y ∧ x.last = y.last := by
  rw [Plant.refusesTarget, Bool.and_eq_true, Plant.guarded_iff, ← guardedWriteOk_iff, Bool.not_eq_true',
    Bool.not_eq_true]

/-- An SW leaves every level as it was, since no level follows from the schedule, the cursor or the queue. -/
theorem settle_writeTarget {p : Plant} (h : p.Levelled) (record : Option StepRecord) (x : StoreItem) :
    settle p ((p.writeTarget record).enqueue x) = (p.writeTarget record).enqueue x :=
  settle_enqueue_of_same (q := p.writeTarget record) h rfl rfl rfl rfl rfl rfl x

/-- Settles O9, from the two forms of `performWriteRecord` and the two outcomes of the guard. -/
theorem writeRecordRule : Obligations.WriteRecordRule := by
  unfold Obligations.WriteRecordRule
  intro s env r h hl
  refine ⟨fun ⟨x, hx, hbad⟩ => ?inconsistent, fun hok => ⟨fun hg => ?guarded, fun hg => ?performed⟩⟩
  case inconsistent =>
    subst hx
    exact congrArg _ (State.take_refuse h env (performWriteRecord_inconsistent hbad _))
  case guarded =>
    have hf := (performWriteRecord_consistent hok s.plant).trans
      (Plant.offer_refused ((s.plant.refusesTarget_iff _).2 hg))
    exact congrArg _ (State.take_refuse h env hf)
  case performed =>
    have hfree : ¬s.plant.refusesTarget (r.map RawStep.record) = true := fun e => by
      obtain ⟨hguard, hno⟩ := (s.plant.refusesTarget_iff _).1 e
      exact hg.elim (absurd hguard) (absurd · hno)
    have hf := (performWriteRecord_consistent hok s.plant).trans (Plant.offer_performed hfree)
    have ht := State.take_performed h env hf
    rw [settle_writeTarget hl] at ht
    exact ⟨nextCursor s.plant.cursor, nextCursor_val _, congrArg _ ht⟩

end Sys2Proof.Machine
end

section
/-! SUPPORT. Proofs: EW, its five fields and the state of its zone (R61). -/

namespace Sys2Proof.Machine

/-! ### The five fields -/

/-- An optional index as an EW spells it: absent with any value byte, or present with its index (R175). -/
def rawIndex (spare : Nat) : Option (Fin 128) → RawOption
  | none => { presence := 0, value := spare }
  | some i => { presence := 1, value := i.val }

theorem optionOf_rawIndex (spare : Nat) (o : Option (Fin 128)) :
    optionOf (indexOf 128) (rawIndex spare o) = some o := by
  cases o <;> simp [optionOf, rawIndex]

/-- A presence byte above 1, and an index above 127, are undefined (R61). -/
theorem optionOf_indexOf_undefined {o : RawOption} (h : 1 < o.presence ∨ (o.presence = 1 ∧ 127 < o.value)) :
    optionOf (indexOf 128) o = none := by
  obtain ⟨presence, value⟩ := o
  rcases h with h | ⟨rfl, h⟩
  · obtain ⟨m, rfl⟩ := Nat.exists_eq_add_of_le' (show 2 ≤ presence from h)
    rfl
  · simp [optionOf, indexOf_eq_none (show 128 ≤ value from h)]

/-- An EW's table with an undefined field is undefined. -/
theorem entriesOf_eq_none {r : RawEntries}
    (h : none ∈
      [optionOf (indexOf 128) r.warmup, optionOf (indexOf 128) r.drying, optionOf (indexOf 128) r.equalize,
        optionOf (indexOf 128) r.condition, optionOf (indexOf 128) r.cooldown]) :
    entriesOf r = none := by
  unfold entriesOf
  split
  · simp_all
  · rfl

/-! ### EW (R61) -/

theorem performEntryTableWrite_zone (p : Plant) {n : Nat} (h : 4 ≤ n) (r : RawEntries) :
    performEntryTableWrite n r p = .refuse .badValue := by
  simp [performEntryTableWrite, zoneOf_eq_none h]

theorem performEntryTableWrite_undefined (p : Plant) (z : Zone) {r : RawEntries} (h : entriesOf r = none) :
    performEntryTableWrite z.code r p = .refuse .badValue := by
  simp [performEntryTableWrite, h]

theorem performEntryTableWrite_defined (p : Plant) (z : Zone) {r : RawEntries} {e : PhaseEntries}
    (h : entriesOf r = some e) :
    performEntryTableWrite z.code r p =
      if (p.ctx z).state.atRest then
        .stored { p with work := { p.work with entries := p.work.entries.set z e } } .entryTables
      else .refuse .wrongState := by
  simp [performEntryTableWrite, h]

theorem ZoneState.atRest_iff (st : ZoneState) : st.atRest = true ↔ st ∈ [.idle, .done, .resumePending] := by
  cases st <;> simp [ZoneState.atRest, ZoneState.guards, ZoneState.watched]

/-- An EW leaves every level as it was, since no level follows from the entry tables or the queue. -/
theorem settle_entries {p : Plant} (h : p.Levelled) (e : PerZone PhaseEntries) (x : StoreItem) :
    settle p (({ p with work := { p.work with entries := e } } : Plant).enqueue x) =
      ({ p with work := { p.work with entries := e } } : Plant).enqueue x :=
  settle_enqueue_of_same (q := { p with work := { p.work with entries := e } }) h rfl rfl rfl rfl rfl rfl x

/-- Settles O11, from the fields that `entriesOf` reads and the two outcomes of `ZoneState.atRest`. -/
theorem entryTableWriteRule : Obligations.EntryTableWriteRule := by
  unfold Obligations.EntryTableWriteRule
  intro s env z f spare h hl raw table
  have hraw : ∀ ph, optionOf (indexOf 128) (raw ph) = some (f ph) := fun ph => by
    rw [← optionOf_rawIndex (spare ph)]
    unfold raw rawIndex
    cases f ph <;> rfl
  have htable : entriesOf table =
      some { warmup := f .warmup, drying := f .drying, equalize := f .equalize, condition := f .condition,
             cooldown := f .cooldown } := by
    simp only [entriesOf, table, hraw]
  refine ⟨fun n hn => ?zone, fun o ho bad hb => ?field, fun hg => ?busy, fun hg => ?performed⟩
  case zone => exact congrArg _ (State.take_refuse h env (performEntryTableWrite_zone _ hn _))
  case field =>
    have hnone := optionOf_indexOf_undefined ho
    have hbad : entriesOf bad = none := by
      simp only [List.mem_cons, List.not_mem_nil, or_false] at hb
      rcases hb with rfl | rfl | rfl | rfl | rfl <;> exact entriesOf_eq_none (by simp [hnone])
    exact congrArg _ (State.take_refuse h env (performEntryTableWrite_undefined _ z hbad))
  case busy =>
    have hf := performEntryTableWrite_defined s.plant z htable
    rw [if_neg (by simp [ZoneState.atRest, hg])] at hf
    exact congrArg _ (State.take_refuse h env hf)
  case performed =>
    have hf := performEntryTableWrite_defined s.plant z htable
    rw [if_pos ((ZoneState.atRest_iff _).2 hg)] at hf
    have ht := State.take_stored h env hf
    rw [settle_entries hl] at ht
    exact congrArg _ ht

end Sys2Proof.Machine
end

section
/-! SUPPORT. Proofs: the walk of a phase and how it ends, validation, and the validation of a resumption (R59, R66, R67). -/

namespace Sys2Proof.Machine

/-! ### The walk (R59) -/

/-- None of the records at these places has last-in-phase yes. -/
def Unmarked (t : Table 128 (Option StepRecord)) (xs : List (Fin 128)) : Prop :=
  ∀ j r, j ∈ xs → t.get j = some r → r.last = false

/-- What each end of a walk says of the `n` records from `e` on that it took, of at most `bound`. -/
def WalkEnd.Tells (t : Table 128 (Option StepRecord)) (bound : Nat) (e : Fin 128) (xs : List (Fin 128)) (n : Nat) :
    WalkEnd → Prop
  | .marker => 0 < n ∧ ∃ i r, i.val + 1 = e.val + n ∧ t.get i = some r ∧ r.last = true
  | .blank i => n < bound ∧ i.val = e.val + n ∧ t.get i = none ∧ Unmarked t xs
  | .noMarker i => (n = bound ∨ e.val + n = 128) ∧ i.val + 1 = e.val + n ∧ Unmarked t xs

/-- A walk of `n` records, of at most `bound`, from record `e` on. -/
structure Walked (t : Table 128 (Option StepRecord)) (bound : Nat) (e : Fin 128) (w : List (Fin 128) × WalkEnd) (n : Nat) :
    Prop where
  bounded : n ≤ bound
  inside : e.val + n ≤ 128
  indices : w.1.map Fin.val = (List.range n).map (e.val + ·)
  present : ∀ i ∈ w.1, (t.get i).isSome = true
  unmarked : ∀ i ∈ w.1, i.val + 1 < e.val + n → ∃ r, t.get i = some r ∧ r.last = false
  tells : w.2.Tells t bound e w.1 n

section Walks

variable {t : Table 128 (Option StepRecord)} {bound n : Nat} {e : Fin 128} {w : List (Fin 128) × WalkEnd}

theorem nextRecord_eq_some {i j : Fin 128} : nextRecord i = some j ↔ j.val = i.val + 1 := by
  unfold nextRecord
  split
  · rw [Option.some.injEq, Fin.ext_iff, eq_comm]
  · have := j.isLt
    simp only [reduceCtorEq, false_iff]
    omega

theorem nextRecord_eq_none {i : Fin 128} : nextRecord i = none ↔ i.val + 1 = 128 := by
  unfold nextRecord
  have := i.isLt
  split <;> simp <;> omega

/-- A walk that finds its first record blank. -/
theorem Walked.none {i : Fin 128} (h : t.get i = none) : Walked t (bound + 1) i ([], .blank i) 0 where
  bounded := Nat.zero_le _
  inside := i.isLt.le
  indices := rfl
  present := by simp
  unmarked := by simp
  tells := ⟨Nat.succ_pos _, rfl, h, fun j _ hj => absurd hj List.not_mem_nil⟩

/-- A walk that ends at its first record. -/
theorem Walked.one {i : Fin 128} {r : StepRecord} {last : WalkEnd} (h : t.get i = some r) (hb : 1 ≤ bound)
    (ht : last.Tells t bound i [i] 1) : Walked t bound i ([i], last) 1 where
  bounded := hb
  inside := i.isLt
  indices := rfl
  present := by simp [h]
  unmarked := by simp
  tells := ht

/-- A walk goes on from a record that has last-in-phase no. -/
theorem Walked.cons {i j : Fin 128} {r : StepRecord} (h : t.get i = some r) (hl : r.last = false)
    (hj : j.val = i.val + 1) (hw : Walked t bound j w n) : Walked t (bound + 1) i (i :: w.1, w.2) (n + 1) where
  bounded := Nat.succ_le_succ hw.bounded
  inside := by have := hw.inside; omega
  indices := by
    have hsum : ((j.val + ·) : Nat → Nat) = (i.val + ·) ∘ Nat.succ := funext fun k => by simp only [Function.comp]; omega
    rw [List.map_cons, hw.indices, List.range_succ_eq_map, List.map_cons, List.map_map, hsum, Nat.add_zero]
  present := List.forall_mem_cons.2 ⟨by simp [h], hw.present⟩
  unmarked := List.forall_mem_cons.2
    ⟨fun _ => ⟨r, h, hl⟩, fun k hk hlt => hw.unmarked k hk (by omega)⟩
  tells := by
    have hu : Unmarked t w.1 → Unmarked t (i :: w.1) := fun hu k x hk hx => by
      rcases List.mem_cons.1 hk with rfl | hk
      · obtain rfl : r = x := Option.some.inj (h.symm.trans hx)
        exact hl
      · exact hu k x hk hx
    have ht := hw.tells
    cases hend : w.2 with
    | marker =>
      rw [hend] at ht
      obtain ⟨-, k, x, hk, hx⟩ := ht
      exact ⟨Nat.succ_pos n, k, x, by omega, hx⟩
    | blank k =>
      rw [hend] at ht
      obtain ⟨hn, hk, hnone, hall⟩ := ht
      exact ⟨by omega, by omega, hnone, hu hall⟩
    | noMarker k =>
      rw [hend] at ht
      obtain ⟨hn, hk, hall⟩ := ht
      exact ⟨by omega, by omega, hu hall⟩

theorem walkFrom_blank (fuel : Nat) {i : Fin 128} (h : t.get i = none) : walkFrom t fuel i = ([], .blank i) := by
  unfold walkFrom
  rw [h]

theorem walkFrom_marker (fuel : Nat) {i : Fin 128} {r : StepRecord} (h : t.get i = some r) (hl : r.last = true) :
    walkFrom t fuel i = ([i], .marker) := by
  unfold walkFrom
  rw [h]
  exact if_pos hl

theorem walkFrom_noMarker {fuel : Nat} {i : Fin 128} {r : StepRecord} (h : t.get i = some r) (hl : ¬r.last = true)
    (hs : fuel = 0 ∨ nextRecord i = none) : walkFrom t fuel i = ([i], .noMarker i) := by
  unfold walkFrom
  rw [h]
  refine (if_neg hl).trans ?_
  rcases hs with rfl | hs
  · rfl
  · rw [hs]
    cases fuel <;> rfl

theorem walkFrom_next {fuel : Nat} {i j : Fin 128} {r : StepRecord} (h : t.get i = some r) (hl : ¬r.last = true)
    (hj : nextRecord i = some j) :
    walkFrom t (fuel + 1) i = (i :: (walkFrom t fuel j).1, (walkFrom t fuel j).2) := by
  rw [walkFrom.eq_def]
  simp only [h, hj, if_neg hl]

/-- A walk with fuel for that many more records after its first. -/
theorem walkFrom_walked (t : Table 128 (Option StepRecord)) (fuel : Nat) (i : Fin 128) :
    ∃ n, Walked t (fuel + 1) i (walkFrom t fuel i) n := by
  have stops : ∀ (fuel : Nat) (i : Fin 128) (r : StepRecord), t.get i = some r → ¬r.last = true →
      fuel = 0 ∨ nextRecord i = none → ∃ n, Walked t (fuel + 1) i (walkFrom t fuel i) n := by
    intro fuel i r h hl hs
    rw [walkFrom_noMarker h hl hs]
    refine ⟨1, .one h (by omega) ⟨hs.imp (fun h0 => by omega) nextRecord_eq_none.1, rfl, fun j x hj hx => ?_⟩⟩
    obtain rfl := List.mem_singleton.1 hj
    obtain rfl : r = x := Option.some.inj (h.symm.trans hx)
    simpa using hl
  induction fuel generalizing i with
  | zero =>
    cases h : t.get i with
    | none => exact ⟨0, walkFrom_blank 0 h ▸ .none h⟩
    | some r =>
      by_cases hl : r.last = true
      · exact ⟨1, walkFrom_marker 0 h hl ▸ .one h (by omega) ⟨by omega, i, r, rfl, h, hl⟩⟩
      · exact stops 0 i r h hl (.inl rfl)
  | succ fuel ih =>
    cases h : t.get i with
    | none => exact ⟨0, walkFrom_blank _ h ▸ .none h⟩
    | some r =>
      by_cases hl : r.last = true
      · exact ⟨1, walkFrom_marker _ h hl ▸ .one h (by omega) ⟨by omega, i, r, rfl, h, hl⟩⟩
      · cases hj : nextRecord i with
        | none => exact stops _ i r h hl (.inr hj)
        | some j =>
          obtain ⟨n, hw⟩ := ih j
          rw [walkFrom_next h hl hj]
          exact ⟨n + 1, .cons h (by simpa using hl) (nextRecord_eq_some.1 hj) hw⟩

/-- Every place that a walk could take from its `n` is one that it has taken. -/
theorem Walked.mem (h : Walked t bound e w n) {i : Fin 128} (h1 : e.val ≤ i.val) (h2 : i.val < e.val + n) : i ∈ w.1 := by
  have hi : i.val ∈ w.1.map Fin.val := by
    rw [h.indices, List.mem_map]
    exact ⟨i.val - e.val, List.mem_range.2 (by omega), by omega⟩
  obtain ⟨j, hj, hji⟩ := List.mem_map.1 hi
  rwa [← Fin.ext hji]

/-- The last record of a walk that has met no marker is not marked. -/
theorem Walked.not_marked (h : Walked t bound e w n) (hu : Unmarked t w.1) (hn : 0 < n) :
    ¬∃ i r, i.val + 1 = e.val + n ∧ t.get i = some r ∧ r.last = true := by
  rintro ⟨i, r, hi, hr, hl⟩
  have := hu i r (h.mem (by omega) (by omega)) hr
  simp [hl] at this

/-- The records of a walk and the one after them tell of one end alone. -/
theorem Walked.tells_unique (h : Walked t bound e w n) {x y : WalkEnd} (hx : x.Tells t bound e w.1 n)
    (hy : y.Tells t bound e w.1 n) : x = y := by
  match x, y, hx, hy with
  | .marker, .marker, _, _ => rfl
  | .marker, .blank _, ⟨hn, hm⟩, ⟨_, _, _, hu⟩ => exact absurd hm (h.not_marked hu hn)
  | .blank _, .marker, ⟨_, _, _, hu⟩, ⟨hn, hm⟩ => exact absurd hm (h.not_marked hu hn)
  | .marker, .noMarker _, ⟨hn, hm⟩, ⟨_, _, hu⟩ => exact absurd hm (h.not_marked hu hn)
  | .noMarker _, .marker, ⟨_, _, hu⟩, ⟨hn, hm⟩ => exact absurd hm (h.not_marked hu hn)
  | .blank i, .blank j, ⟨_, hi, _, _⟩, ⟨_, hj, _, _⟩ => exact congrArg _ (Fin.ext (hi.trans hj.symm))
  | .noMarker i, .noMarker j, ⟨_, hi, _⟩, ⟨_, hj, _⟩ => exact congrArg _ (Fin.ext (by omega))
  | .blank i, .noMarker _, ⟨hn, hi, _, _⟩, ⟨hb, _, _⟩ => exact absurd i.isLt (by omega)
  | .noMarker _, .blank i, ⟨hb, _, _⟩, ⟨hn, hi, _, _⟩ => exact absurd i.isLt (by omega)

theorem Walked.end_iff (h : Walked t bound e w n) (x : WalkEnd) : w.2 = x ↔ x.Tells t bound e w.1 n :=
  ⟨fun hx => hx ▸ h.tells, fun hx => h.tells_unique h.tells hx⟩

end Walks

/-- The walk of a phase takes at most 32 records (R59). -/
theorem walk_walked (t : Table 128 (Option StepRecord)) (e : Fin 128) : ∃ n, Walked t 32 e (walk t e) n :=
  walkFrom_walked t 31 e

theorem Plant.extent_none {p : Plant} {z : Zone} {ph : Phase} (h : (p.work.entries.get z).get ph = none) :
    p.extent z ph = [] := by
  rw [Plant.extent, h]

theorem Plant.extent_some {p : Plant} {z : Zone} {ph : Phase} {e : Fin 128}
    (h : (p.work.entries.get z).get ph = some e) : p.extent z ph = (walk p.work.records e).1 := by
  rw [Plant.extent, h]

/-! ### Validation (R66) -/

/-- A phase passes validation: it may lack its entry, or its walk ends at a marker. -/
def PhasePasses (t : Table 128 (Option StepRecord)) (e : PhaseEntries) (ph : Phase) : Prop :=
  (e.get ph = none ∧ ph ≠ .drying ∧ ph ≠ .cooldown) ∨ ∃ i, e.get ph = some i ∧ (walk t i).2 = .marker

/-- A finding says of its phase what its entry and its walk give. -/
def Finding.Tells (f : Finding) (t : Table 128 (Option StepRecord)) (e : PhaseEntries) : Prop :=
  (f.reason = .noEntry ∧ f.record = none ∧ e.get f.phase = none ∧ (f.phase = .drying ∨ f.phase = .cooldown)) ∨
    ∃ i j, e.get f.phase = some i ∧ f.record = some j ∧
      ((f.reason = .blankRecord ∧ (walk t i).2 = .blank j) ∨ (f.reason = .noMarker ∧ (walk t i).2 = .noMarker j))

theorem phaseFinding_none (t : Table 128 (Option StepRecord)) (e : PhaseEntries) (ph : Phase) :
    phaseFinding t e ph = none ↔ PhasePasses t e ph := by
  unfold phaseFinding PhasePasses
  cases he : e.get ph with
  | none => simp
  | some i => cases hw : (walk t i).2 <;> simp [hw]

theorem phaseFinding_some {t : Table 128 (Option StepRecord)} {e : PhaseEntries} {ph : Phase} {f : Finding}
    (h : phaseFinding t e ph = some f) : f.phase = ph ∧ f.Tells t e := by
  unfold phaseFinding at h
  cases he : e.get ph with
  | none =>
    simp only [he, Option.ite_none_right_eq_some, Option.some.injEq] at h
    obtain ⟨hph, rfl⟩ := h
    exact ⟨rfl, .inl ⟨rfl, rfl, he, hph⟩⟩
  | some i =>
    cases hw : (walk t i).2 with
    | marker => simp [he, hw] at h
    | blank j =>
      simp only [he, hw, Option.some.injEq] at h
      subst h
      exact ⟨rfl, .inr ⟨i, j, he, rfl, .inl ⟨rfl, hw⟩⟩⟩
    | noMarker j =>
      simp only [he, hw, Option.some.injEq] at h
      subst h
      exact ⟨rfl, .inr ⟨i, j, he, rfl, .inr ⟨rfl, hw⟩⟩⟩

theorem Plant.validate_none (p : Plant) (z : Zone) :
    p.validate z = none ↔ ∀ ph, PhasePasses p.work.records (p.work.entries.get z) ph := by
  simp only [Plant.validate, List.findSome?_eq_none_iff, Phase.mem_order, phaseFinding_none, true_imp_iff]

theorem Phase.order_rising : Phase.order.Pairwise fun x y => x.code < y.code := by decide

/-- A finding is that of the first phase that does not pass. -/
theorem Plant.validate_some {p : Plant} {z : Zone} {f : Finding} (h : p.validate z = some f) :
    (∀ ph : Phase, ph.code < f.phase.code → PhasePasses p.work.records (p.work.entries.get z) ph) ∧
      f.Tells p.work.records (p.work.entries.get z) := by
  obtain ⟨before, first, after, horder, hf, hbefore⟩ := List.findSome?_eq_some_iff.1 h
  obtain ⟨rfl, htells⟩ := phaseFinding_some hf
  refine ⟨fun ph hlt => (phaseFinding_none _ _ ph).1 (hbefore ph ?_), htells⟩
  have hrise := Phase.order_rising
  rw [horder, List.pairwise_append, List.pairwise_cons] at hrise
  obtain ⟨-, ⟨hafter, -⟩, -⟩ := hrise
  have hmem := Phase.mem_order ph
  rw [horder, List.mem_append, List.mem_cons] at hmem
  rcases hmem with hm | rfl | hm
  · exact hm
  · exact absurd hlt (lt_irrefl _)
  · exact absurd hlt (lt_asymm (hafter ph hm))

/-- Validation finds nothing exactly where the two phases that must be there are, and every walk ends at a marker. -/
theorem PhasePasses.all_iff (t : Table 128 (Option StepRecord)) (e : PhaseEntries) :
    (∀ ph, PhasePasses t e ph) ↔
      e.drying.isSome = true ∧ e.cooldown.isSome = true ∧ ∀ ph i, e.get ph = some i → (walk t i).2 = .marker := by
  constructor
  · intro h
    have entry : ∀ ph, ph = .drying ∨ ph = .cooldown → (e.get ph).isSome = true := fun ph hph => by
      rcases h ph with ⟨-, hd, hc⟩ | ⟨i, hi, -⟩
      · exact absurd hph (not_or.2 ⟨hd, hc⟩)
      · rw [hi]; rfl
    refine ⟨entry .drying (.inl rfl), entry .cooldown (.inr rfl), fun ph i hi => ?_⟩
    rcases h ph with ⟨hn, -⟩ | ⟨j, hj, hw⟩
    · simp [hn] at hi
    · obtain rfl : j = i := Option.some.inj (hj.symm.trans hi)
      exact hw
  · rintro ⟨hd, hc, hw⟩ ph
    cases he : e.get ph with
    | some i => exact .inr ⟨i, he, hw ph i he⟩
    | none =>
      refine .inl ⟨he, ?_, ?_⟩ <;> rintro rfl
      · rw [show e.drying = none from he] at hd; cases hd
      · rw [show e.cooldown = none from he] at hc; cases hc

/-! ### Validation of a resumption (R67) -/

/-- A checkpoint that names no run gives the blank finding of DRYING. -/
theorem Plant.validateResume_unnamed (p : Plant) (z : Zone) {k : Checkpoint}
    (h : k.recorded = .idle ∨ k.recorded = .done ∨ k.step = none) :
    p.validateResume z k = some { phase := .drying, reason := .blankRecord, record := k.step } := by
  unfold Plant.validateResume
  rcases h with h | h | h
  · simp only [h]
  · simp only [h]
  · cases hr : k.recorded <;> simp only [h]

/-- The three checks of a checkpoint that names a run. -/
theorem Plant.validateResume_named (p : Plant) (z : Zone) {k : Checkpoint} {ph : Phase} {i : Fin 128}
    (hk : k.recorded = .phase ph ∨ k.recorded = .held ph) (hi : k.step = some i) :
    p.validateResume z k = Plant.validateResume.check p z ph i := by
  unfold Plant.validateResume
  rcases hk with hk | hk <;> simp only [hk, hi]

/-- Settles O10: the walk by induction on its fuel, validation as the first finding of the phases in their order, and the
checks of a resumption one by one. -/
theorem walkAndValidationRule : Obligations.WalkAndValidationRule := by
  unfold Obligations.WalkAndValidationRule
  refine ⟨⟨fun t e => ?walk, fun p z ph => ⟨Plant.extent_none, fun e => Plant.extent_some⟩⟩,
    fun p z => ⟨?passes, fun f hf => ?finding⟩,
    fun p z k => ⟨p.validateResume_unnamed z, fun ph i hk hi => ?resumption⟩⟩
  case walk =>
    obtain ⟨n, h⟩ := walk_walked t e
    exact ⟨n, h.bounded, h.inside, h.indices, h.present, h.unmarked, h.end_iff .marker, fun i => h.end_iff (.blank i),
      fun i => h.end_iff (.noMarker i)⟩
  case passes => exact (p.validate_none z).trans (PhasePasses.all_iff _ _)
  case finding =>
    obtain ⟨hbefore, htells⟩ := Plant.validate_some hf
    exact ⟨fun ph hlt => (hbefore ph hlt).imp_left fun ⟨hn, hd, _⟩ => ⟨hn, hd⟩, htells⟩
  case resumption =>
    rw [p.validateResume_named z hk hi]
    unfold Plant.validateResume.check
    refine ⟨fun hb => by rw [hb], fun hb => ?_⟩
    obtain ⟨r, hr⟩ := Option.isSome_iff_exists.1 hb
    simp only [hr]
    refine ⟨fun f hf => by rw [hf], fun hv ho => ?_, fun hv ho => ?_⟩
    · rw [hv]
      exact if_neg ho
    · rw [hv]
      exact if_pos ho

end Sys2Proof.Machine
end

section
/-! SUPPORT. Proofs: RM of a zone in HELD or in a phase state, and its refusals (R67, R92, R109). -/

namespace Sys2Proof.Machine

theorem performResume_undefined (p : Plant) {n : Nat} (h : 4 ≤ n) : performResume n p = .refuse .badValue := by
  simp [performResume, zoneOf_eq_none h]

theorem performResume_disabled {p : Plant} (z : Zone) (h : p.fieldEnabled = false) :
    performResume z.code p = .refuse .wrongState := by
  simp [performResume, h]

/-- RM is refused where there is nothing to resume. -/
theorem performResume_refused {p : Plant} (z : Zone) (h : (p.ctx z).state ∈ [.idle, .starting, .safe, .done]) :
    performResume z.code p = .refuse .wrongState := by
  simp only [List.mem_cons, List.not_mem_nil, or_false] at h
  unfold performResume
  rw [zoneOf_code]
  rcases h with h | h | h | h <;> simp only [h, ite_self]

/-- RM of a zone that runs: HOST leaves its hold-cause set and those that it reaches, and the release is judged. -/
theorem performResume_runs {p : Plant} (z : Zone) (hf : p.fieldEnabled = true)
    (h : (p.ctx z).state = .held ∨ (p.ctx z).state.inPhase = true) :
    performResume z.code p = .ok ((z :: p.reached z).foldl Plant.hostResume p).judgeRelease := by
  unfold performResume
  rw [zoneOf_code]
  simp only [hf, Bool.not_true, Bool.false_eq_true, if_false]
  cases hs : (p.ctx z).state <;> simp_all [ZoneState.inPhase]

theorem Plant.tryResume_finding {p : Plant} {z : Zone} {f : Finding}
    (h : p.validateResume z ((p.ctx z).resumeFrom.getD {}) = some f) : p.tryResume z = .inl f := by
  unfold Plant.tryResume
  simp only [h]

theorem Plant.tryResume_resumed {p : Plant} {z : Zone}
    (h : p.validateResume z ((p.ctx z).resumeFrom.getD {}) = none) :
    p.tryResume z = .inr (p.resumeRun z ((p.ctx z).resumeFrom.getD {})).judgeRelease := by
  unfold Plant.tryResume
  simp only [h]

/-- A finding of the checkpoint's validation is answered (R67). -/
theorem performResume_finding {p : Plant} {z : Zone} {f : Finding} (hf : p.fieldEnabled = true)
    (hs : (p.ctx z).state = .resumePending) (h : p.validateResume z ((p.ctx z).resumeFrom.getD {}) = some f) :
    performResume z.code p = .answered { status := .badSchedule, content := .finding f } := by
  unfold performResume
  rw [zoneOf_code]
  simp only [hf, hs, Plant.tryResume_finding h, Bool.not_true, Bool.false_eq_true, if_false]

/-- The run of a checkpoint whose validation finds nothing is taken up, and the release is judged (R111, R166). -/
theorem performResume_resumed {p : Plant} {z : Zone} (hf : p.fieldEnabled = true)
    (hs : (p.ctx z).state = .resumePending) (h : p.validateResume z ((p.ctx z).resumeFrom.getD {}) = none) :
    performResume z.code p = .ok (p.resumeRun z ((p.ctx z).resumeFrom.getD {})).judgeRelease := by
  unfold performResume
  rw [zoneOf_code]
  simp only [hf, hs, Plant.tryResume_resumed h, Bool.not_true, Bool.false_eq_true, if_false]

/-- A zone without hold-together, or no member, reaches no other. -/
theorem Plant.reached_alone {p : Plant} {z : Zone}
    (h : p.work.config.group.holdTogether = false ∨ (p.work.config.zones.get z).grouped = false) :
    p.reached z = [] := by
  unfold Plant.reached Plant.grouped Plant.items
  refine if_neg ?_
  rcases h with h | h <;> simp [h]

theorem Plant.hostResume_left {p : Plant} {z : Zone}
    (h : (p.ctx z).state = .held ∨ (p.ctx z).holdPending = true) :
    p.HoldLeft (p.hostResume z) z { host := false, line := (p.ctx z).holds.line } := by
  rw [Plant.hostResume, if_pos h]
  exact p.leaveHold_left z fun h => { h with host := false }

/-- Outside HELD and hold-pending RM changes nothing. -/
theorem Plant.hostResume_unaffected {p : Plant} {z : Zone} (hs : (p.ctx z).state.inPhase = true)
    (hp : (p.ctx z).holdPending = false) : p.hostResume z = p := by
  refine if_neg ?_
  rintro (h | h)
  · simp [h, ZoneState.inPhase] at hs
  · simp [hp] at h

/-- Settles O22, from the form of `performResume` for each state and what HOST leaving a hold-cause set does. -/
theorem resumeRule : Obligations.ResumeRule := by
  unfold Obligations.ResumeRule
  intro s env z h p u
  refine ⟨fun n hn => ?undefined, fun hr => ?refused, fun hf hs f hv => ?finding, fun hf hs ha => ?runs⟩
  case undefined => exact congrArg _ (State.take_refuse h env (performResume_undefined _ hn))
  case refused =>
    have hp : performResume z.code p = .refuse .wrongState :=
      hr.elim (performResume_disabled z) (performResume_refused z)
    exact congrArg _ (State.take_refuse h env hp)
  case finding =>
    have ht := State.take_ask h env (performResume z.code)
    rw [performResume_finding hf hs hv] at ht
    exact congrArg _ ht
  case runs =>
    have hp := performResume_runs z hf hs
    rw [Plant.reached_alone ha] at hp
    exact ⟨p.hostResume z, (p.hostResume z).judgeRelease, congrArg _ (State.take_performed h env hp),
      Plant.judgeRelease_released _, fun hh => Plant.hostResume_left hh,
      fun hi hn => Plant.hostResume_unaffected hi hn⟩

end Sys2Proof.Machine
end

section
/-! SUPPORT. Proofs: RL, the reload of the active step copy and what follows it (R69, R70, R91, R120, R125). -/

namespace Sys2Proof.Machine

/-! ### A zone steered by a step -/

/-- The setpoints of a step formed in a zone that runs, its climate changed from there, and the step's reversal interval set,
with the dwell that it may begin (R116, R125). -/
theorem Plant.steer_eq (p : Plant) (z : Zone) (u : ZoneUnit) (x : StepRecord) (f : ClimateState → ClimateState)
    (hs : u.ctx.state.runs = true) :
    (((p.put z u).formSetpoints z x).climate z f).setInterval z x.fanInterval =
      (p.raiseIf (decide (p.kiln.maximumDb < x.db)) (.zone z .targetClamped)).put z
        { u with
          climate := f (u.climate.steered x p.kiln.maximumDb)
          output := u.output.turned x.fanInterval (p.work.config.zones.get z).dwell } := by
  have hc : ((p.put z u).formSetpoints z x).climate z f =
      (p.raiseIf (decide (p.kiln.maximumDb < x.db)) (.zone z .targetClamped)).put z
        { u with climate := f (u.climate.steered x p.kiln.maximumDb) } := by
    rw [Plant.formSetpoints_eq, Plant.climate, Plant.zone_eq_put, Plant.put_put, Plant.put_unit_self,
      Plant.put_unit_self, Plant.raiseIf_put, Plant.put_put, Plant.put_kiln]
  rw [hc, Plant.setInterval_eq _ z _ (by rw [Plant.put_ctx_self]; exact hs), Plant.put_unit_self, Plant.put_put,
    Plant.put_work, Plant.raiseIf_work]

/-- A ramp toward the setpoints of a step (R119). -/
theorem ClimateState.steered_ramp (c : ClimateState) (x : StepRecord) (maximum : Int) :
    (c.steered x maximum).ramp =
      (c.steered x maximum).started (min x.db maximum) (min x.db maximum - x.depression) :=
  ClimateState.ramp_eq _ _ _ rfl rfl

/-! ### The reload -/

/-- A zone that has taken over a step as its active copy, with its climate and the reversal interval (R69, R70). -/
def ZoneUnit.reloaded (u : ZoneUnit) (x : StepRecord) (climate : ClimateState) (dwell : Nat) : ZoneUnit :=
  { u with
    ctx := { u.ctx with activeCopy := some x }
    climate := climate
    output := u.output.turned x.fanInterval dwell }

/-- The plant that a reload of step `x` leaves, with TARGET_CLAMPED where the maximum cuts it (R69, R116). -/
def Plant.reloadedPlant (p : Plant) (z : Zone) (x : StepRecord) (climate : ClimateState) : Plant :=
  (p.raiseIf (decide (p.kiln.maximumDb < x.db)) (.zone z .targetClamped)).put z
    ((p.unit z).reloaded x climate (p.work.config.zones.get z).dwell)

/-- The climate of a reload in a phase state (R70, R119). -/
def Plant.reloadRamp (p : Plant) (z : Zone) (x : StepRecord) : ClimateState :=
  ((p.unit z).climate.steered x p.kiln.maximumDb).started (min x.db p.kiln.maximumDb)
    (min x.db p.kiln.maximumDb - x.depression)

section Reload

variable {p : Plant} {z : Zone} {x : StepRecord} {c : ClimateState}

@[simp] theorem Plant.reloadedPlant_unit :
    (p.reloadedPlant z x c).unit z = (p.unit z).reloaded x c (p.work.config.zones.get z).dwell := Plant.put_unit_self _ _ _

@[simp] theorem Plant.reloadedPlant_ctx :
    (p.reloadedPlant z x c).ctx z = { p.ctx z with activeCopy := some x } := Plant.put_ctx_self _ _ _

/-- In HELD a reload forms the setpoints and leaves the targets where they are. -/
theorem Plant.reload_held (h : (p.ctx z).state = .held) :
    p.reload z x = p.reloadedPlant z x ((p.unit z).climate.steered x p.kiln.maximumDb) := by
  have he := p.steer_eq z ((p.unit z).withCtx fun c => { c with activeCopy := some x }) x id
    (by rw [ZoneUnit.withCtx_ctx, ← Plant.ctx_eq, h]; rfl)
  have hid : ∀ q : Plant, q.climate z id = q := fun q => Plant.put_unit q z
  rw [hid] at he
  unfold Plant.reload
  simp only [h, ZoneState.inPhase, Bool.false_eq_true, if_false]
  exact he

/-- In a phase state a reload starts a ramp from the targets as they stand. -/
theorem Plant.reload_phase (h : (p.ctx z).state.inPhase = true) :
    p.reload z x = p.reloadedPlant z x (p.reloadRamp z x) := by
  have hr : (p.ctx z).state.runs = true := (ZoneState.runs_iff _).2 (.inr h)
  have he := p.steer_eq z ((p.unit z).withCtx fun c => { c with activeCopy := some x }) x ClimateState.ramp hr
  rw [ZoneUnit.withCtx_climate, ClimateState.steered_ramp] at he
  unfold Plant.reload
  simp only [h, if_true]
  exact he

/-! ### What follows the reload -/

theorem Plant.enterHeld_state (p : Plant) (z : Zone) : ((p.enterHeld z).ctx z).state = .held := by
  unfold Plant.enterHeld
  rw [Plant.queueCheckpoint_ctx, Plant.record_eq, Plant.put_ctx_self, Plant.zone_eq_put, Plant.put_ctx_self]
  rfl

/-- A ramp that was not in flight, or still is, reports no completion. -/
theorem Plant.reportRamp_stays {q r : Plant} (h : ¬(q.unit z).ramping = true ∨ (r.unit z).ramping = true) :
    q.reportRamp r z = r := by
  refine if_neg ?_
  rcases h with h | h <;> simp [h]

/-- A completed ramp leaves a zone that is not hold-pending as it is. -/
theorem Plant.reportRamp_unheld {q r : Plant} (h : (r.ctx z).holdPending = false) : q.reportRamp r z = r := by
  unfold Plant.reportRamp
  split
  · exact if_neg (by simp [h])
  · rfl

/-- A completed ramp takes a hold-pending zone into HELD (R91, R120). -/
theorem Plant.reportRamp_held {q r : Plant} (h1 : (q.unit z).ramping = true) (h2 : ¬(r.unit z).ramping = true)
    (h3 : (r.ctx z).state.inPhase = true) (h4 : (r.ctx z).holdPending = true) : q.reportRamp r z = r.enterHeld z := by
  unfold Plant.reportRamp
  rw [if_pos (by simp [h1, h2])]
  exact if_pos (by simp [h3, h4])

/-- Outside the phase states and hold-pending a zone is evaluated without effect (R86). -/
theorem Plant.evaluateAlone_stays (h : (p.ctx z).state.phase? = none ∨ (p.ctx z).holdPending = true) :
    p.evaluateAlone z = p := by
  refine (p.evaluateAlone_judged z).stays fun ph x hs _ => ?_
  rcases h with h | h
  · simp [hs, ZoneState.phase?] at h
  · exact .inl h

theorem Plant.reloadStep_eq {i : Fin 128} (hi : (p.ctx z).stepIndex = some i) (hx : p.work.records.get i = some x) :
    p.reloadStep z = (p.reportRamp (p.reload z x) z).evaluate z := by
  unfold Plant.reloadStep
  rw [hi, Option.bind_some, hx]

theorem Plant.evaluate_stays (h : (p.ctx z).state.phase? = none ∨ (p.ctx z).holdPending = true) :
    p.evaluate z = p.judgeRelease := by
  rw [Plant.evaluate, Plant.evaluateAlone_stays h]

theorem Plant.reloadedPlant_ramping (h : (p.ctx z).state.inPhase = true) :
    ((p.reloadedPlant z x c).unit z).ramping = true ↔ c.Away := by
  rw [ZoneUnit.ramping_iff, Plant.reloadedPlant_unit]
  exact and_iff_right h

section Step

variable {i : Fin 128} (hi : (p.ctx z).stepIndex = some i) (hx : p.work.records.get i = some x)
include hi hx

theorem Plant.reloadStep_held (hs : (p.ctx z).state = .held) :
    p.reloadStep z = (p.reloadedPlant z x ((p.unit z).climate.steered x p.kiln.maximumDb)).judgeRelease := by
  have hr : ¬(p.unit z).ramping = true := by
    rw [ZoneUnit.ramping_iff, ← Plant.ctx_eq, hs]
    exact fun h => Bool.false_ne_true h.1
  rw [Plant.reloadStep_eq hi hx, Plant.reload_held hs, Plant.reportRamp_stays (.inl hr),
    Plant.evaluate_stays (.inl (by rw [Plant.reloadedPlant_ctx, hs]; rfl))]

theorem Plant.reloadStep_phase (hs : (p.ctx z).state.inPhase = true) (hp : (p.ctx z).holdPending = false) :
    p.reloadStep z = (p.reloadedPlant z x (p.reloadRamp z x)).evaluate z := by
  rw [Plant.reloadStep_eq hi hx, Plant.reload_phase hs,
    Plant.reportRamp_unheld (by rw [Plant.reloadedPlant_ctx]; exact hp)]

/-- While the ramp of a hold-pending zone goes on, it stays hold-pending. -/
theorem Plant.reloadStep_pending (hs : (p.ctx z).state.inPhase = true) (hp : (p.ctx z).holdPending = true)
    (ha : (p.reloadRamp z x).Away) :
    p.reloadStep z = (p.reloadedPlant z x (p.reloadRamp z x)).judgeRelease := by
  rw [Plant.reloadStep_eq hi hx, Plant.reload_phase hs,
    Plant.reportRamp_stays (.inr ((Plant.reloadedPlant_ramping hs).2 ha)),
    Plant.evaluate_stays (.inr (by rw [Plant.reloadedPlant_ctx]; exact hp))]

/-- Where the reload completes the ramp of a hold-pending zone, it enters HELD (R91, R120). -/
theorem Plant.reloadStep_completes {ph : Phase} (hs : (p.ctx z).state = .phase ph) (hp : (p.ctx z).holdPending = true)
    (ha : (p.unit z).climate.Away) (hn : ¬(p.reloadRamp z x).Away) :
    p.reloadStep z = ((p.reloadedPlant z x (p.reloadRamp z x)).enterHeld z).judgeRelease := by
  have hin : (p.ctx z).state.inPhase = true := by rw [hs]; rfl
  rw [Plant.reloadStep_eq hi hx, Plant.reload_phase hin,
    Plant.reportRamp_held ((ZoneUnit.ramping_iff _).2 ⟨hin, ha⟩) (fun e => hn ((Plant.reloadedPlant_ramping hin).1 e))
      (by rw [Plant.reloadedPlant_ctx]; exact hin) (by rw [Plant.reloadedPlant_ctx]; exact hp),
    Plant.evaluate_stays (.inl (congrArg ZoneState.phase? (Plant.enterHeld_state _ z)))]

end Step

end Reload

/-! ### RL -/

theorem performReloadStep_undefined (p : Plant) {n : Nat} (h : 4 ≤ n) : performReloadStep n p = .refuse .badValue := by
  simp [performReloadStep, zoneOf_eq_none h]

theorem performReloadStep_zone (p : Plant) (z : Zone) :
    performReloadStep z.code p = if (p.ctx z).state.runs then .ok (p.reloadStep z) else .refuse .wrongState := by
  simp [performReloadStep]

theorem ZoneState.not_runs {st : ZoneState} (hh : st ≠ .held) (hp : st.phase? = none) : ¬st.runs = true := by
  cases st <;> simp_all [ZoneState.runs, ZoneState.phase?]

/-- Settles O26, from what RL makes of a zone in HELD, in a phase state, and hold-pending. -/
theorem reloadRule : Obligations.ReloadRule := by
  unfold Obligations.ReloadRule
  intro s env z i x h p u v alerted leaves climate ramped
  have hf := performReloadStep_zone p z
  -- an RL that leaves `r`, the release judged
  have judged : ∀ r : Plant, (p.ctx z).state.runs = true → p.reloadStep z = r.judgeRelease → leaves r := by
    intro r hr he
    rw [if_pos hr, he] at hf
    exact ⟨_, r.judgeRelease_released, congrArg _ (State.take_performed h env hf)⟩
  have runs : (p.ctx z).state.inPhase = true → (p.ctx z).state.runs = true := fun hs => (ZoneState.runs_iff _).2 (.inr hs)
  refine ⟨fun n hn => ?undefined, fun hh hp => ?refused,
    fun hi hx => ⟨fun hs => ?held, fun hs hp => ?phase, fun ph hs hp => ?pending⟩⟩
  case undefined => exact congrArg _ (State.take_refuse h env (performReloadStep_undefined _ hn))
  case refused =>
    rw [if_neg (ZoneState.not_runs (st := (p.ctx z).state) hh hp)] at hf
    exact congrArg _ (State.take_refuse h env hf)
  case held => exact judged _ ((ZoneState.runs_iff _).2 (.inl hs)) (Plant.reloadStep_held hi hx hs)
  case phase =>
    exact ⟨_, Plant.evaluateAlone_judged _ z, judged _ (runs hs) (Plant.reloadStep_phase hi hx hs hp)⟩
  case pending =>
    have hin : (p.ctx z).state.inPhase = true := congrArg ZoneState.inPhase hs
    refine ⟨fun ha => judged _ (runs hin) (Plant.reloadStep_pending hi hx hin hp ha), fun ha hn => judged _ (runs hin) ?_⟩
    rw [Plant.reloadStep_completes hi hx hs hp ha hn, Plant.enterHeld_eq _ z ph, Plant.reloadedPlant_unit,
      Plant.reloadedPlant, Plant.put_put]
    · rfl
    · rw [Plant.reloadedPlant_ctx]
      exact hs

end Sys2Proof.Machine
end

section
/-! SUPPORT. Proofs: RM in RESUME_PENDING, the run taken up again and what follows it in the same event (R91, R138, R166). -/

namespace Sys2Proof.Machine

/-! ### The run taken up -/

/-- A zone whose run has been taken up at step `i` with content `x`, in a state and with a climate (R166). -/
def ZoneUnit.resumed (u : ZoneUnit) (k : Checkpoint) (i : Fin 128) (x : StepRecord) (holdIn : Bool) (state : ZoneState)
    (under : Option Phase) (host : Bool) (climate : ClimateState) : ZoneUnit :=
  { u with
    ctx :=
      { u.ctx.gain
          { kind := .restarted, minute := k.runClock, step := some i, reason := none, cmc := u.aggregate.cmc,
            dmc := u.aggregate.dmc } with
        state := state
        underlying := under
        holds := { host := host, line := holdIn }
        holdPending := false
        stepIndex := some i
        activeCopy := some x
        stepClock := k.stepClock
        runClock := k.runClock
        eligible := none
        waiting := false
        waitCount := 0
        detached := k.detached
        checkpointCount := 0
        minuteTimer := some 60000
        resumeFrom := none }
    climate := climate
    output :=
      { u.output with
        fan := { ({ u.output.fan with direction := k.direction } : FanState).running with interval := x.fanInterval } } }

/-- The plant with zone `z` taken up on step `x`: TARGET_CLAMPED where the maximum cuts the step, and a checkpoint (R116,
R166). -/
def Plant.takenUp (p : Plant) (z : Zone) (x : StepRecord) (w : ZoneUnit) : Plant :=
  ((p.raiseIf (decide (p.kiln.maximumDb < x.db)) (.zone z .targetClamped)).put z w).enqueue (.checkpoint z w.checkpoint)

/-- The setpoints of the resumed step with the targets at the measured start values (R116, R119). -/
def Plant.resumeClimate (p : Plant) (z : Zone) (x : StepRecord) : ClimateState :=
  ((p.unit z).climate.measured p.kiln.maximumDb).steered x p.kiln.maximumDb

/-- The same with a ramp started toward the setpoints. -/
def Plant.resumeRamp (p : Plant) (z : Zone) (x : StepRecord) : ClimateState :=
  (p.resumeClimate z x).started (min x.db p.kiln.maximumDb) (min x.db p.kiln.maximumDb - x.depression)

/-- A fan that has just started, with its reversal count at 0, begins no dwell (R124, R125). -/
theorem OutputState.turned_running (o : OutputState) (f : FanState) (interval dwell : Nat) :
    ({ o with fan := f.running } : OutputState).turned interval dwell =
      { o with fan := { f.running with interval := interval } } := by
  unfold OutputState.turned
  refine if_neg ?_
  rintro ⟨-, h0, hle⟩
  exact h0 (Nat.le_zero.1 hle)

section Resumption

variable {p : Plant} {z : Zone} {k : Checkpoint} {ph : Phase} {i : Fin 128} {x : StepRecord}

@[simp] theorem Plant.takenUp_unit (p : Plant) (z : Zone) (x : StepRecord) (w : ZoneUnit) :
    (p.takenUp z x w).unit z = w := by
  rw [Plant.takenUp, Plant.enqueue_unit, Plant.put_unit_self]

theorem Plant.takenUp_put (p : Plant) (z : Zone) (x : StepRecord) {w v : ZoneUnit} (h : w.checkpoint = v.checkpoint) :
    (p.takenUp z x w).put z v = p.takenUp z x v := by
  rw [Plant.takenUp, Plant.enqueue_put, Plant.put_put, h]
  rfl

/-- The steps of a resumption from the zone's new context to its checkpoint. -/
theorem Plant.takenUp_eq (p : Plant) (z : Zone) (u : ZoneUnit) (x : StepRecord) (f : ClimateState → ClimateState)
    (hs : u.ctx.state.runs = true) :
    (((((p.put z u).formSetpoints z x).climate z f).setInterval z x.fanInterval).record z .restarted).queueCheckpoint z =
      p.takenUp z x
        { u with
          ctx := { u.ctx.gain (u.event .restarted none) with checkpointCount := 0 }
          climate := f (u.climate.steered x p.kiln.maximumDb)
          output := u.output.turned x.fanInterval (p.work.config.zones.get z).dwell } := by
  rw [Plant.steer_eq p z u x f hs, Plant.record_eq, Plant.put_put, Plant.put_unit_self, Plant.put_ctx_self,
    Plant.queueCheckpoint_eq, Plant.put_put, Plant.put_unit_self, Plant.put_ctx_self]
  rfl

/-- A recorded HELD is taken up in HELD, judged on the conditions of SAFE, and evaluated (R138, R166). -/
theorem Plant.resumeRun_held (hk : k.recorded = .held ph) (hi : k.step = some i) (hx : p.work.records.get i = some x) :
    p.resumeRun z k =
      ((p.takenUp z x
          ((p.unit z).resumed k i x p.holdIn .held (some ph) true (p.resumeClimate z x))).judgeWatched z).evaluateAlone z := by
  unfold Plant.resumeRun
  simp only [hk, hi, hx, Option.bind_some, ZoneState.inPhase, Bool.false_and, Bool.false_eq_true, if_false,
    Plant.zone_eq_put, FanState.start_eq, ClimateState.measure_eq]
  rw [Plant.takenUp_eq _ _ _ _ _ rfl, OutputState.turned_running]
  rfl

/-- A recorded phase state taken up in its phase, before the hold that it may come to (R166). -/
def Plant.phaseTaken (p : Plant) (z : Zone) (k : Checkpoint) (ph : Phase) (i : Fin 128) (x : StepRecord) : Plant :=
  p.takenUp z x ((p.unit z).resumed k i x p.holdIn (.phase ph) none k.hostHold (p.resumeRamp z x))

/-- A recorded phase state is taken up in its phase, with the hold that it may come to, and the rest as for HELD (R91). -/
theorem Plant.resumeRun_phase (hk : k.recorded = .phase ph) (hi : k.step = some i) (hx : p.work.records.get i = some x) :
    p.resumeRun z k =
      ((if (k.hostHold || p.holdIn) = true then (p.phaseTaken z k ph i x).applyHold z
        else p.phaseTaken z k ph i x).judgeWatched z).evaluateAlone z := by
  have hr : (((p.unit z).climate.steered x p.kiln.maximumDb).measured p.kiln.maximumDb).ramp = p.resumeRamp z x :=
    ClimateState.steered_ramp ((p.unit z).climate.measured p.kiln.maximumDb) x p.kiln.maximumDb
  unfold Plant.resumeRun
  simp only [hk, hi, hx, Option.bind_some, ZoneState.inPhase, if_true, Bool.true_and, Plant.zone_eq_put,
    FanState.start_eq, ClimateState.measure_eq]
  rw [Plant.takenUp_eq _ _ _ _ _ rfl, OutputState.turned_running, hr]
  have ht : ((p.phaseTaken z k ph i x).ctx z).holds.any = (k.hostHold || p.holdIn) := by
    rw [Plant.ctx_eq, Plant.phaseTaken, Plant.takenUp_unit]
    rfl
  rw [← ht]
  rfl

/-! ### The hold and the conditions of SAFE -/

/-- The hold of a run taken up in its phase, with no ramp in flight (R91). -/
theorem Plant.takenUp_held {w : ZoneUnit} (hw : w.ctx.state = .phase ph) (ha : ¬w.climate.Away) :
    (p.takenUp z x w).applyHold z =
      ((p.takenUp z x w).put z (w.heldOver ph)).enqueue (.checkpoint z (w.heldOver ph).checkpoint) := by
  unfold Plant.applyHold
  rw [Plant.takenUp_unit, if_neg fun e => ha ((ZoneUnit.ramping_iff _).1 e).2,
    Plant.enterHeld_eq _ z ph (by rw [Plant.ctx_eq, Plant.takenUp_unit]; exact hw), Plant.takenUp_unit]

/-- The hold of a run taken up in its phase, with its ramp in flight (R91). -/
theorem Plant.takenUp_pending {w : ZoneUnit} (hw : w.ctx.state = .phase ph) (ha : w.climate.Away)
    (he : w.ctx.eligible = none ∧ w.ctx.waiting = false ∧ w.ctx.waitCount = 0) :
    (p.takenUp z x w).applyHold z = p.takenUp z x { w with ctx := { w.ctx with holdPending := true } } := by
  obtain ⟨he, hwait, hcount⟩ := he
  unfold Plant.applyHold
  rw [Plant.takenUp_unit, if_pos ((ZoneUnit.ramping_iff _).2 ⟨by rw [hw]; rfl, ha⟩), Plant.context_eq_put,
    Plant.takenUp_unit, Plant.takenUp_put]
  · simp only [ZoneUnit.withCtx, ← he, ← hwait, ← hcount]
  · rfl

/-- The causes whose conditions stand are those that the judgement of a watched zone finds. -/
theorem Plant.Stand.eq {causes : SafeCauses} (h : p.Stand z causes) :
    causes =
      { door := p.doorOpen, sensor := (p.unit z).sensorFault, fan := p.overdue z,
        overtemp := (p.unit z).overtemp p.kiln } := by
  have hdoor : causes.door = p.doorOpen := Bool.eq_iff_iff.2 h.door
  have hsensor : causes.sensor = (p.unit z).sensorFault :=
    Bool.eq_iff_iff.2 (h.sensor.trans (by simp [ZoneUnit.sensorFault]))
  have hfan : causes.fan = p.overdue z := Bool.eq_iff_iff.2 (h.fan.trans (by simp [Plant.overdue]))
  have hovertemp : causes.overtemp = (p.unit z).overtemp p.kiln :=
    Bool.eq_iff_iff.2 (h.overtemp.trans (by simp [ZoneUnit.overtemp, ZoneUnit.dbSatisfies_iff]))
  rw [← hdoor, ← hsensor, ← hfan, ← hovertemp]

/-- A zone that runs with an empty cause set enters SAFE with the causes that stand, or stays (R138, R139). -/
theorem Plant.judgeWatched_stand {causes : SafeCauses} (hs : (p.ctx z).state.runs = true)
    (hc : (p.unit z).causes.any = false) (h : p.Stand z causes) :
    (causes.any = true → p.Secured (p.judgeWatched z) z causes) ∧ (causes.any = false → p.judgeWatched z = p) := by
  have hj := p.judgeWatched_runs z hs hc
  simp only [← h.eq] at hj
  refine ⟨fun ha => ?_, fun ha => ?_⟩
  · rw [hj, if_pos ha]
    exact p.enterSafe_secured z causes
  · rw [hj, if_neg (by simp [ha])]

theorem Plant.Secured.state {q : Plant} {causes : SafeCauses} (h : p.Secured q z causes) : (q.ctx z).state = .safe := by
  unfold Plant.Secured at h
  rw [h, Plant.enqueue_ctx, Plant.put_ctx_self]
  rfl

/-- What a run taken up comes to once it is judged and evaluated: SAFE where a condition stands, and otherwise what its
evaluation leaves (R86, R138). -/
theorem Plant.judged_evaluated (hs : (p.ctx z).state.runs = true) (hc : (p.unit z).causes.any = false)
    {causes : SafeCauses} (h : p.Stand z causes) :
    (causes.any = true → p.Secured ((p.judgeWatched z).evaluateAlone z) z causes) ∧
      (causes.any = false → p.StepJudged ((p.judgeWatched z).evaluateAlone z) z) := by
  obtain ⟨hsafe, hstay⟩ := Plant.judgeWatched_stand hs hc h
  refine ⟨fun ha => ?_, fun ha => ?_⟩
  · rw [Plant.evaluateAlone_stays (.inl (congrArg ZoneState.phase? (hsafe ha).state))]
    exact hsafe ha
  · rw [hstay ha]
    exact p.evaluateAlone_judged z

end Resumption

/-- Settles O23: the run is taken up as `Plant.resumeRun_held` and `Plant.resumeRun_phase` say, comes to its hold where its set
is not empty, and is judged. -/
theorem resumptionRule : Obligations.ResumptionRule := by
  unfold Obligations.ResumptionRule
  intro s env z k ph i x h p u hf hs hk hv hi hx hc fan climate v leaves taken ramped judged
  have hkp : (p.ctx z).resumeFrom.getD {} = k := by rw [show (p.ctx z).resumeFrom = some k from hk, Option.getD_some]
  -- a resumption that comes to `t`, with zone `z` at `w`, before the conditions of SAFE are judged
  have comes : ∀ (t : Plant) (w : ZoneUnit), p.resumeRun z k = (t.judgeWatched z).evaluateAlone z → t.unit z = w →
      w.ctx.state.runs = true → w.causes.any = false → judged t := by
    rintro t w ht rfl hrun hcauses causes hstand
    have hp := performResume_resumed hf hs (by rw [hkp]; exact hv)
    rw [hkp, ht] at hp
    have hl : leaves ((t.judgeWatched z).evaluateAlone z) :=
      ⟨_, Plant.judgeRelease_released _, congrArg _ (State.take_performed h env hp)⟩
    obtain ⟨hsafe, hstay⟩ := Plant.judged_evaluated hrun hcauses hstand
    exact ⟨fun ha => ⟨_, hsafe ha, hl⟩, fun ha => ⟨_, hstay ha, hl⟩⟩
  refine ⟨fun hr => ?held, fun hr hh hn => ?free, fun hr hh => ?stopping⟩
  case held => exact comes _ _ (Plant.resumeRun_held hr hi hx) (Plant.takenUp_unit p z x _) rfl hc
  case free =>
    have he := Plant.resumeRun_phase (z := z) hr hi hx
    rw [if_neg (by simp [hh, hn]), Plant.phaseTaken, hh] at he
    exact comes _ _ he (Plant.takenUp_unit p z x _) rfl hc
  case stopping =>
    have he := Plant.resumeRun_phase (z := z) hr hi hx
    rw [if_pos (by simpa using hh), Plant.phaseTaken] at he
    refine ⟨fun ha => ?_, fun ha => ?_⟩
    · rw [Plant.takenUp_pending rfl ha ⟨rfl, rfl, rfl⟩] at he
      exact comes _ _ he (Plant.takenUp_unit p z x _) rfl hc
    · rw [Plant.takenUp_held rfl ha] at he
      exact comes _ ((v (.phase ph) none k.hostHold ramped).heldOver ph) he
        (by rw [Plant.enqueue_unit, Plant.put_unit_self]) rfl hc

end Sys2Proof.Machine
end

section
/-! SUPPORT. Proofs: FE with the automatic resumptions, FD, and LW (R130, R152, R167). -/

namespace Sys2Proof.Machine

/-! ### The zones that wait for their resumption -/

/-- No zone enters RESUME_PENDING, or leaves it, other than unchanged. -/
def Plant.PendingKept (p q : Plant) (y : Zone) : Prop :=
  q.unit y = p.unit y ∨ ((p.ctx y).state ≠ .resumePending ∧ (q.ctx y).state ≠ .resumePending)

theorem Plant.PendingKept.trans {p q r : Plant} {y : Zone} (h : p.PendingKept q y) (k : q.PendingKept r y) :
    p.PendingKept r y := by
  unfold Plant.PendingKept at *
  simp only [Plant.ctx_eq] at *
  rcases h with h | ⟨h1, h2⟩
  · rwa [← h]
  · rcases k with k | ⟨k1, k2⟩
    · exact .inr ⟨h1, by rwa [k]⟩
    · exact .inr ⟨h1, k2⟩

theorem Plant.enterStep_state (p : Plant) (z : Zone) (ph : Phase) (i : Fin 128) (start : RampFrom) :
    ((p.enterStep z ph i start).ctx z).state = .phase ph := by
  unfold Plant.enterStep
  dsimp only
  rw [Plant.queueCheckpoint_ctx, Plant.raise_ctx]
  dsimp only
  split
  · rw [Plant.setInterval_ctx, Plant.startRamp, Plant.climate_ctx, Plant.formSetpoints_ctx, Plant.ctx_context_self]
  · rw [Plant.ctx_context_self]

theorem Plant.enterDone_state (p : Plant) (z : Zone) : ((p.enterDone z).ctx z).state = .done := by
  rw [Plant.enterDone_eq, Plant.enqueue_ctx, Plant.put_ctx_self]

/-- An advance leaves a zone in a phase state or in DONE, or changes nothing. -/
theorem Plant.advance_pending (p : Plant) (z y : Zone) : p.PendingKept (p.advance z) y := by
  by_cases hy : y = z
  · subst hy
    unfold Plant.advance
    dsimp only
    split
    · next ph i hs hi =>
      refine .inr ⟨by simp [hs], ?_⟩
      split
      · rw [Plant.enterStep_state]; nofun
      · rw [Plant.enterDone_state]; nofun
    · exact .inl rfl
  · exact .inl ((Plant.Only.advance p z).others y hy)

theorem Plant.PendingKept.refl (p : Plant) (y : Zone) : p.PendingKept p y := .inl rfl

theorem Plant.foldl_advance_pending (zs : List Zone) (p : Plant) (y : Zone) :
    p.PendingKept (zs.foldl Plant.advance p) y := by
  induction zs generalizing p with
  | nil => exact .refl p y
  | cons z zs ih => exact (p.advance_pending z y).trans (ih _)

theorem Plant.judgeRelease_pending (p : Plant) (y : Zone) : p.PendingKept p.judgeRelease y := by
  unfold Plant.judgeRelease
  dsimp only
  split
  · exact Plant.foldl_advance_pending _ p y
  · exact .refl p y

theorem Plant.Only.resumeRun (p : Plant) (z : Zone) (k : Checkpoint) : Plant.Only z p (p.resumeRun z k) := by
  have held : ∀ {q : Plant} {c : Prop} [Decidable c], Plant.Only z p q →
      Plant.Only z p (if c then q.applyHold z else q) := fun h =>
    .ite (h.trans (.ite (.context _ z _) (.enterHeld _ z))) h
  unfold Plant.resumeRun
  dsimp only
  refine Plant.Only.trans (Plant.Only.trans (held ?_) (.judgeWatched _ z)) (.evaluateAlone _ z)
  refine Plant.Only.trans (Plant.Only.trans ?_ (.record _ z _ _)) (.queueCheckpoint _ z)
  split
  · exact (((Plant.Only.zone p z _).trans (.formSetpoints _ z _)).trans (.zone _ z _)).trans (.setInterval _ z _)
  · exact .zone p z _

/-! ### Auto-resume of one zone (R167) -/

section Auto

variable {p : Plant} {z : Zone}

theorem Plant.autoResume_other (h : ¬((p.ctx z).state = .resumePending ∧ (p.items z).autoResume = true)) :
    p.autoResume z = p := if_neg h

theorem Plant.autoResume_waits (h : (p.ctx z).state = .resumePending ∧ (p.items z).autoResume = true)
    (hv : p.validateResume z ((p.ctx z).resumeFrom.getD {}) ≠ none) :
    p.autoResume z = p.raise (.zone z .resumeWaiting) := by
  obtain ⟨f, hf⟩ := Option.ne_none_iff_exists'.1 hv
  rw [Plant.autoResume, if_pos h, Plant.tryResume_finding hf]

theorem Plant.autoResume_resumes (h : (p.ctx z).state = .resumePending ∧ (p.items z).autoResume = true)
    (hv : p.validateResume z ((p.ctx z).resumeFrom.getD {}) = none) :
    p.autoResume z = (p.resumeRun z ((p.ctx z).resumeFrom.getD {})).judgeRelease := by
  rw [Plant.autoResume, if_pos h, Plant.tryResume_resumed hv]

/-- Auto-resume changes nothing, raises RESUME_WAITING, or takes up the run of its zone. -/
theorem Plant.autoResume_cases (p : Plant) (z : Zone) :
    p.autoResume z = p ∨ p.autoResume z = p.raise (.zone z .resumeWaiting) ∨
      p.autoResume z = (p.resumeRun z ((p.ctx z).resumeFrom.getD {})).judgeRelease := by
  by_cases h : (p.ctx z).state = .resumePending ∧ (p.items z).autoResume = true
  · by_cases hv : p.validateResume z ((p.ctx z).resumeFrom.getD {}) = none
    · exact .inr (.inr (Plant.autoResume_resumes h hv))
    · exact .inr (.inl (Plant.autoResume_waits h hv))
  · exact .inl (Plant.autoResume_other h)

theorem Plant.Kept.autoResume (p : Plant) (z : Zone) : p.Kept (p.autoResume z) := by
  rcases p.autoResume_cases z with e | e | e <;> rw [e]
  · exact .refl p
  · exact .raise p _
  · exact (Plant.Kept.resumeRun p z _).trans (.judgeRelease _)

theorem Plant.autoResume_pending (p : Plant) (z y : Zone) (h : y ≠ z) : p.PendingKept (p.autoResume z) y := by
  rcases p.autoResume_cases z with e | e | e <;> rw [e]
  · exact .refl p y
  · exact .inl rfl
  · exact Plant.PendingKept.trans (.inl ((Plant.Only.resumeRun p z _).others y h)) (Plant.judgeRelease_pending _ y)

end Auto

/-- A fold that takes each zone as one that no other's turn has brought into RESUME_PENDING, or changed there, is a chain. -/
theorem Plant.chain_pending {R : Zone → Plant → Plant → Prop} (f : Plant → Zone → Plant) {p : Plant}
    (hk : ∀ (x : Plant) (z : Zone), x.Kept (f x z)) (hp : ∀ (x : Plant) (z y : Zone), y ≠ z → x.PendingKept (f x z) y)
    (hf : ∀ z x, p.Kept x → p.PendingKept x z → R z x (f x z)) (zs : List Zone) (hn : zs.Nodup) :
    ∀ x, p.Kept x → (∀ y ∈ zs, p.PendingKept x y) → Plant.Chain R zs x (zs.foldl f x) := by
  induction zs with
  | nil => exact fun _ _ _ => rfl
  | cons z zs ih =>
    intro x hx hu
    obtain ⟨hz, hzs⟩ := List.nodup_cons.1 hn
    refine ⟨_, hf z x hx (hu z List.mem_cons_self), ih hzs _ (hx.trans (hk x z)) fun y hy => ?_⟩
    exact (hu y (List.mem_cons_of_mem _ hy)).trans (hp x z y fun e => hz (e ▸ hy))

/-- Validation of a resumption reads the stored content alone. -/
theorem Plant.validateResume_congr {p q : Plant} (h : q.work = p.work) (z : Zone) (k : Checkpoint) :
    q.validateResume z k = p.validateResume z k := by
  unfold Plant.validateResume Plant.validateResume.check Plant.validate Plant.extent
  rw [h]

/-! ### FE and FD (R130) -/

theorem performFieldEnable_enabled {p : Plant} (h : p.fieldEnabled = true) : performFieldEnable p = .read .none :=
  if_pos h

theorem performFieldEnable_disabled {p : Plant} (h : p.fieldEnabled = false) :
    performFieldEnable p = .ok (({ p with fieldEnabled := true } : Plant).eachZone Plant.autoResume) :=
  if_neg (by simp [h])

/-- Where no zone waits for an automatic resumption, none is resumed. -/
theorem Plant.eachZone_autoResume_none {p : Plant}
    (h : ∀ z, (p.ctx z).state = .resumePending → (p.items z).autoResume = false) : p.eachZone Plant.autoResume = p := by
  have stays : ∀ z, p.autoResume z = p := fun z =>
    Plant.autoResume_other fun ⟨hs, ha⟩ => by simp [h z hs] at ha
  rw [Plant.eachZone_eq, stays, stays, stays, stays]

theorem Plant.Kept.eachZone_autoResume (p : Plant) : p.Kept (p.eachZone Plant.autoResume) :=
  .foldl _ (fun q z => .autoResume q z) _ p

/-- A zone's turn in an FE on `p`, from `x` to `y`: RM's resumption where it waits for an automatic one whose validation finds
nothing, RESUME_WAITING where validation has a finding, and nothing for any other zone (R167). -/
def Plant.AutoTurn (s : State) (env : Envelope) (p : Plant) (z : Zone) (x y : Plant) : Prop :=
  let auto := (p.ctx z).state = .resumePending ∧ (p.work.config.zones.get z).autoResume = true
  let finding := p.validateResume z ((p.ctx z).resumeFrom.getD {})
  (¬auto → y = x) ∧ (auto → finding ≠ none → y = x.raise (.zone z .resumeWaiting)) ∧
    (auto → finding = none →
      exec (.resume env z.code) { s with plant := x } =
        .next (State.answered { s with plant := x } .rm env (settle x y) { status := .ok }))

theorem Plant.autoResume_turn {s : State} (env : Envelope) (h : s.Ready .rm) {p x : Plant} {z : Zone}
    (hf : x.fieldEnabled = true) (hw : x.work = p.work) (hp : p.PendingKept x z) :
    p.AutoTurn s env z x (x.autoResume z) := by
  have hitems : x.items z = p.items z := by rw [Plant.items, Plant.items, hw]
  have hv : ∀ k, x.validateResume z k = p.validateResume z k := Plant.validateResume_congr hw z
  -- a zone that waits stands as it did at first
  have same : (p.ctx z).state = .resumePending → x.ctx z = p.ctx z := fun hs => by
    rcases hp with e | ⟨hn, -⟩
    · rw [Plant.ctx_eq, e, Plant.ctx_eq]
    · exact absurd hs hn
  unfold Plant.AutoTurn
  intro auto finding
  have auto' : auto → (x.ctx z).state = .resumePending ∧ (x.items z).autoResume = true := fun ha =>
    ⟨by rw [same ha.1]; exact ha.1, by rw [hitems]; exact ha.2⟩
  refine ⟨fun hn => Plant.autoResume_other fun ⟨hs, ha⟩ => hn ⟨?_, by rw [hitems] at ha; exact ha⟩,
    fun ha hfound => Plant.autoResume_waits (auto' ha) ?_, fun ha hnone => ?_⟩
  · rcases hp with e | ⟨-, hx⟩
    · rwa [Plant.ctx_eq, ← e, ← Plant.ctx_eq]
    · exact absurd hs hx
  · rw [hv, same ha.1]
    exact hfound
  · have hfree : x.validateResume z ((x.ctx z).resumeFrom.getD {}) = none := by rw [hv, same ha.1]; exact hnone
    rw [Plant.autoResume_resumes (auto' ha) hfree]
    have hready : State.Ready { s with plant := x } .rm := ⟨h.running, h.silent, h.free, h.gate⟩
    exact congrArg _ (State.take_performed hready env
      (performResume_resumed hf (auto' ha).1 hfree))

theorem performFieldDisable_refused {p : Plant} (h : ∃ z, (p.ctx z).state.guards = true) :
    performFieldDisable p = .refuse .wrongState := by
  obtain ⟨z, hz⟩ := h
  have ha : p.allAtRest = false := by
    rw [Plant.allAtRest, List.all_eq_false]
    exact ⟨z, Zone.mem_order z, by simp [ZoneState.atRest, hz]⟩
  exact if_pos (by rw [ha]; rfl)

theorem performFieldDisable_rest {p : Plant} (h : ∀ z, (p.ctx z).state ∈ [.idle, .done, .resumePending]) :
    performFieldDisable p =
      if p.fieldEnabled = true then
        .ok (({ p with fieldEnabled := false } : Plant).eachZone fun q z => q.output z OutputState.cut)
      else .read .none := by
  have ha : p.allAtRest = true := List.all_eq_true.2 fun z _ => (ZoneState.atRest_iff _).2 (h z)
  unfold performFieldDisable
  rw [ha]
  cases p.fieldEnabled <;> rfl

/-- Every automatic level is cut. -/
theorem Plant.eachZone_cut (p : Plant) :
    (p.eachZone fun q z => q.output z OutputState.cut) =
      { p with
        zones := PerZone.tabulate fun z => { p.unit z with output := (p.unit z).output.off } } := rfl

/-! ### LW (R152) -/

theorem LineRole.isOutput_iff (r : LineRole) : r.isOutput = true ↔ r = .alarmOut ∨ r = .generalOut := by
  cases r <;> simp [LineRole.isOutput]

theorem lineBits_get (n : Nat) (i : Fin 16) : (lineBits n).get i = n.testBit i.val := Table.get_tabulate _ i

theorem Plant.maskOk_iff (p : Plant) (mask : Nat) :
    p.maskOk (lineBits mask) = true ↔
      ∀ i : Fin 16, mask.testBit i.val = true → (p.lineItems i).role = .alarmOut ∨ (p.lineItems i).role = .generalOut := by
  simp only [Plant.maskOk, List.all_eq_true, List.mem_finRange, true_imp_iff, lineBits_get, Bool.or_eq_true,
    Bool.not_eq_true', ← LineRole.isOutput_iff]
  exact forall_congr' fun i => by cases mask.testBit i.val <;> simp

theorem Plant.writeLatches_get (p : Plant) (mask values : Nat) (i : Fin 16) :
    (p.writeLatches (lineBits mask) (lineBits values)).lines.get i =
      { p.lines.get i with latch := if mask.testBit i.val then values.testBit i.val else (p.lines.get i).latch } := by
  rw [Plant.writeLatches, Table.get_tabulate, lineBits_get, lineBits_get]
  cases mask.testBit i.val <;> rfl

theorem performLineModify_refused {p : Plant} {mask : Nat} (values : Nat) (h : ¬p.maskOk (lineBits mask) = true) :
    performLineModify mask values p = .refuse .badValue := if_neg h

theorem performLineModify_performed {p : Plant} {mask : Nat} (values : Nat) (h : p.maskOk (lineBits mask) = true) :
    performLineModify mask values p =
      .ok (p.writeLatches (lineBits mask) (lineBits values))
        (.latches (p.writeLatches (lineBits mask) (lineBits values)).latches) := if_pos h

/-- Settles O30: FE as the chain of the zones' turns, FD from the states of the zones, and LW from its mask. -/
theorem fieldAndLineModifyRule : Obligations.FieldAndLineModifyRule := by
  unfold Obligations.FieldAndLineModifyRule
  refine ⟨fun s env => ⟨fun h => ⟨fun hf => ?enabled, fun hf hn => ?none, fun hf => ?resumes⟩,
      fun h => ⟨fun hg => ?guards, fun hr => ⟨fun hf => ?disabled, fun hf => ?disables⟩⟩⟩,
    fun s env mask values h => ⟨fun ⟨i, hi, ho⟩ => ?mask, fun hm => ?latches⟩⟩
  case enabled => exact congrArg _ (State.take_read h env (performFieldEnable_enabled hf))
  case none =>
    have hp := performFieldEnable_disabled hf
    rw [Plant.eachZone_autoResume_none (p := { s.plant with fieldEnabled := true }) hn] at hp
    exact congrArg _ (State.take_performed h env hp)
  case resumes =>
    have hready : s.Ready .rm := ⟨h.running, h.silent, h.free, fun _ => h.gate rfl⟩
    have hchain := Plant.chain_pending (R := s.plant.AutoTurn s env) (p := { s.plant with fieldEnabled := true })
      Plant.autoResume Plant.Kept.autoResume Plant.autoResume_pending
      (fun z x hk hp => Plant.autoResume_turn env hready hk.fieldEnabled hk.work hp) everyZone (by decide) _ (.refl _)
      fun y _ => .refl _ y
    exact ⟨_, congrArg _ (State.take_performed h env (performFieldEnable_disabled hf)),
      (Plant.Kept.eachZone_autoResume _).same, hchain⟩
  case guards => exact congrArg _ (State.take_refuse h env (performFieldDisable_refused hg))
  case disabled =>
    have hp := performFieldDisable_rest hr
    rw [if_neg (by simp [hf])] at hp
    exact congrArg _ (State.take_read h env hp)
  case disables =>
    have hp := performFieldDisable_rest hr
    rw [if_pos hf, Plant.eachZone_cut] at hp
    exact congrArg _ (State.take_performed h env hp)
  case mask =>
    have hno : ¬s.plant.maskOk (lineBits mask) = true := fun e => ho ((s.plant.maskOk_iff mask).1 e i hi)
    exact congrArg _ (State.take_refuse h env (performLineModify_refused values hno))
  case latches =>
    have hp := performLineModify_performed values ((s.plant.maskOk_iff mask).2 hm)
    exact ⟨_, _, congrArg _ (State.take_performed h env hp),
      fun i => ⟨Plant.writeLatches_get _ _ _ i, Table.get_map _ _ i⟩⟩

end Sys2Proof.Machine
end

section
/-! SUPPORT. Proofs: the form of a zone and the bounds of its counts through every operation on the plant (R73, R97, R104, R125,
R133). -/

namespace Sys2Proof.Machine

/-! ### One zone -/

/-- What is done to a zone breaks neither its form nor its bounds. -/
structure ZoneUnit.Upholds (u v : ZoneUnit) : Prop where
  form : u.Consistent → v.Consistent
  bounds : u.Bounded → v.Bounded

/-- The form of a zone follows from its state, its underlying phase and its safe causes. -/
structure ZoneUnit.SameForm (u v : ZoneUnit) : Prop where
  state : v.ctx.state = u.ctx.state
  underlying : v.ctx.underlying = u.ctx.underlying
  causes : v.causes = u.causes

theorem ZoneUnit.SameForm.consistent {u v : ZoneUnit} (h : u.SameForm v) (hu : u.Consistent) : v.Consistent :=
  ⟨by rw [h.underlying, h.state]; exact hu.underlying, by rw [h.causes, h.state]; exact hu.causes⟩

/-- A change of counts alone that keeps their bounds. -/
theorem ZoneUnit.Upholds.of_form {u v : ZoneUnit} (h : u.SameForm v) (hb : u.Bounded → v.Bounded) : u.Upholds v :=
  ⟨h.consistent, hb⟩

/-- A zone in no state but HELD and SAFE has its form where it has neither an underlying phase nor a cause. -/
theorem ZoneUnit.Consistent.plain {u : ZoneUnit} (hh : u.ctx.state ≠ .held) (hs : u.ctx.state ≠ .safe)
    (hu : u.ctx.underlying = none) (hc : u.causes.any = false) : u.Consistent :=
  ⟨by rw [hu]; simp [hh, hs], by rw [hc]; simp [hs]⟩

theorem ZoneUnit.Consistent.unharmed {u : ZoneUnit} (h : u.Consistent) (hs : u.ctx.state ≠ .safe) : u.causes.any = false := by
  rw [h.causes]; simp [hs]

theorem ZoneUnit.Consistent.fresh : ({} : ZoneUnit).Consistent := .plain nofun nofun rfl rfl

theorem ZoneUnit.Bounded.fresh : ({} : ZoneUnit).Bounded := ⟨by decide, by decide, by decide, by decide⟩

namespace ZoneUnit.Upholds

variable {u v w : ZoneUnit}

theorem refl (u : ZoneUnit) : u.Upholds u := ⟨id, id⟩

theorem trans (h : u.Upholds v) (k : v.Upholds w) : u.Upholds w := ⟨k.form ∘ h.form, k.bounds ∘ h.bounds⟩

/-- A fresh zone has its form and its bounds, whatever stood before. -/
theorem fresh (u : ZoneUnit) : u.Upholds {} := ⟨fun _ => .fresh, fun _ => .fresh⟩

end ZoneUnit.Upholds

theorem bump_le (top n : Nat) : bump top n ≤ top := Nat.min_le_left _ _

/-- A run record that gains an entry keeps its length and its dropped count in their bounds (R97). -/
theorem ZoneUnit.Upholds.gain (u : ZoneUnit) (e : RunEntry) : u.Upholds { u with ctx := u.ctx.gain e } := by
  refine .of_form ⟨rfl, rfl, rfl⟩ fun h => ⟨?_, ?_, h.waitCount, h.reversals⟩
  · have hl := h.runRecord
    simp only [ZoneContext.gain, List.length_append, List.length_singleton]
    split
    · omega
    · rw [List.length_drop]; omega
  · simp only [ZoneContext.gain]
    split
    · exact h.dropped
    · exact Nat.min_le_left _ _

/-- SAFE entered by a zone that runs, with a cause (R95, R133). -/
theorem ZoneUnit.Upholds.secured {u : ZoneUnit} {causes : SafeCauses} (hs : u.ctx.state = .held ∨ u.ctx.state.inPhase = true)
    (hc : causes.any = true) (setting : SafeFan) : u.Upholds (u.secured causes setting) where
  form h := by
    refine ⟨?_, hc⟩
    change u.ctx.currentPhase.isSome = true
    have hu := h.underlying
    unfold ZoneContext.currentPhase
    rcases hs with hs | hs
    · simpa [hs] using hu
    · cases hst : u.ctx.state <;> simp [hst, ZoneState.inPhase] at hs ⊢
  bounds h := by
    have hg := (ZoneUnit.Upholds.gain u (u.event .safeEntered none)).bounds h
    refine ⟨hg.runRecord, hg.dropped, Nat.zero_le _, ?_⟩
    change (if setting = .stop then _ else if _ then _ else _ : FanState).reversalCount ≤ 720
    split
    · exact h.reversals
    · split
      · exact h.reversals
      · exact Nat.zero_le _

/-- SAFE left into HELD with no cause (R96, R133). -/
theorem ZoneUnit.Upholds.released {u : ZoneUnit} (hs : u.ctx.state = .safe) (maximum : Int) (holdIn : Bool) :
    u.Upholds (u.released maximum holdIn) where
  form h := by
    have hu := h.underlying
    rw [hs] at hu
    exact ⟨hu, rfl⟩
  bounds h := by
    have hg := (ZoneUnit.Upholds.gain u (u.event .safeLeft none)).bounds h
    refine ⟨hg.runRecord, hg.dropped, hg.waitCount, ?_⟩
    change (if _ then _ else _ : FanState).reversalCount ≤ 720
    split
    · exact Nat.zero_le _
    · exact h.reversals

/-- A context that agrees with another in its state and underlying phase, in its run record, and in the bound of its wait
count. -/
structure ZoneContext.Alike (c d : ZoneContext) : Prop where
  state : d.state = c.state
  underlying : d.underlying = c.underlying
  runRecord : d.runRecord = c.runRecord
  dropped : d.dropped = c.dropped
  waitCount : c.waitCount ≤ 1441 → d.waitCount ≤ 1441

/-! ### Starts, one zone's alone -/

theorem Plant.Only.failStart (p : Plant) (z : Zone) (f : StartFailure) : Plant.Only z p (p.failStart z f) :=
  (Plant.Only.context p z _).trans (.raise _ _)

theorem Plant.Only.takeMember (p : Plant) (z : Zone) (source : StartSource) : Plant.Only z p (p.takeMember z source) := by
  unfold Plant.takeMember
  split
  · exact .failStart p z _
  · exact .zone p z _

theorem Plant.Only.startAlone (p : Plant) (z : Zone) (source : StartSource) (h : p.grouped z = false) :
    Plant.Only z p (p.startAlone z source) :=
  ((Plant.Only.zone p z _).trans (.context _ z _)).trans (.evaluateStart _ z h)

/-- A checkpoint whose validation finds nothing names a phase, with or without HELD, and a step that is not blank (R67). -/
theorem Plant.validateResume_names {p : Plant} {z : Zone} {k : Checkpoint} (h : p.validateResume z k = none) :
    ∃ ph i x, (k.recorded = .phase ph ∨ k.recorded = .held ph) ∧ k.step = some i ∧ p.work.records.get i = some x := by
  have named : ∀ ph, (k.recorded = .phase ph ∨ k.recorded = .held ph) →
      ∃ ph i x, (k.recorded = .phase ph ∨ k.recorded = .held ph) ∧ k.step = some i ∧ p.work.records.get i = some x := by
    intro ph hk
    cases hi : k.step with
    | none => rw [Plant.validateResume_unnamed p z (.inr (.inr hi))] at h; cases h
    | some i =>
      rw [Plant.validateResume_named p z hk hi] at h
      unfold Plant.validateResume.check at h
      cases hx : p.work.records.get i with
      | none => rw [hx] at h; cases h
      | some x => exact ⟨ph, i, x, hk, rfl, hx⟩
  cases hk : k.recorded with
  | phase ph => exact hk ▸ named ph (.inl hk)
  | held ph => exact hk ▸ named ph (.inr hk)
  | idle => rw [Plant.validateResume_unnamed p z (.inl hk)] at h; cases h
  | done => rw [Plant.validateResume_unnamed p z (.inr (.inl hk))] at h; cases h

/-! ### The plant -/

/-- What is done to the plant breaks no zone's form and none of its bounds. -/
def Plant.Upholds (p q : Plant) : Prop := ∀ z, (p.unit z).Upholds (q.unit z)

namespace Plant.Upholds

variable {p q r : Plant} {z : Zone}

theorem refl (p : Plant) : p.Upholds p := fun _ => .refl _

theorem trans (h : p.Upholds q) (k : q.Upholds r) : p.Upholds r := fun z => (h z).trans (k z)

theorem ite {c : Prop} [Decidable c] (h : p.Upholds q) (k : p.Upholds r) : p.Upholds (if c then q else r) := by
  split <;> assumption

/-- What leaves the zones as they were. -/
theorem of_zones (h : q.zones = p.zones) : p.Upholds q := fun z => by
  rw [Plant.unit, Plant.unit, h]; exact .refl _

/-- A change of one zone's unit. -/
theorem zone (p : Plant) (z : Zone) (f : ZoneUnit → ZoneUnit) (h : (p.unit z).Upholds (f (p.unit z))) :
    p.Upholds (p.zone z f) := fun y => by
  rw [Plant.unit_zone]
  split
  · next e => exact e ▸ h
  · exact .refl _

/-- A change of a zone's context alone. -/
theorem context (p : Plant) (z : Zone) (f : ZoneContext → ZoneContext) (h : (p.ctx z).Alike (f (p.ctx z))) :
    p.Upholds (p.context z f) :=
  .zone p z _ (.of_form ⟨h.state, h.underlying, rfl⟩ fun hb =>
    ⟨h.runRecord.symm ▸ hb.runRecord, h.dropped.symm ▸ hb.dropped, h.waitCount hb.waitCount, hb.reversals⟩)

theorem raise (p : Plant) (a : Alert) : p.Upholds (p.raise a) := .of_zones rfl

theorem raiseIf (p : Plant) (b : Bool) (a : Alert) : p.Upholds (p.raiseIf b a) := .ite (.raise p a) (.refl p)

theorem enqueue (p : Plant) (x : StoreItem) : p.Upholds (p.enqueue x) := .of_zones (Plant.enqueue_zones p x)

theorem queueCheckpoint (p : Plant) (z : Zone) : p.Upholds (p.queueCheckpoint z) :=
  (enqueue p _).trans (.context _ z _ ⟨rfl, rfl, rfl, rfl, id⟩)

theorem record (p : Plant) (z : Zone) (k : RunKind) (reason : Option ExitReason) : p.Upholds (p.record z k reason) := by
  unfold Plant.record
  exact .zone p z _ (by rw [ZoneUnit.withCtx, ZoneContext.append_eq]; exact .gain _ _)

theorem climate (p : Plant) (z : Zone) (f : ClimateState → ClimateState) : p.Upholds (p.climate z f) :=
  .zone p z _ (.of_form ⟨rfl, rfl, rfl⟩ fun h => ⟨h.runRecord, h.dropped, h.waitCount, h.reversals⟩)

theorem pass (p : Plant) (z : Zone) (f : PassState → PassState) : p.Upholds (p.pass z f) :=
  .zone p z _ (.of_form ⟨rfl, rfl, rfl⟩ fun h => ⟨h.runRecord, h.dropped, h.waitCount, h.reversals⟩)

/-- A change of a zone's outputs that keeps the reversal count in its bounds. -/
theorem output (p : Plant) (z : Zone) (f : OutputState → OutputState)
    (h : (p.unit z).output.fan.reversalCount ≤ 720 → (f (p.unit z).output).fan.reversalCount ≤ 720) :
    p.Upholds (p.output z f) :=
  .zone p z _ (.of_form ⟨rfl, rfl, rfl⟩ fun hb => ⟨hb.runRecord, hb.dropped, hb.waitCount, h hb.reversals⟩)

theorem fan (p : Plant) (z : Zone) (f : FanState → FanState)
    (h : (p.unit z).output.fan.reversalCount ≤ 720 → (f (p.unit z).output.fan).reversalCount ≤ 720) :
    p.Upholds (p.fan z f) := .output p z _ h

theorem groupTimeout (p : Plant) (t : Timer) : p.Upholds { p with groupTimeout := t } := .of_zones rfl

theorem foldl {α : Type} {f : Plant → α → Plant} (hf : ∀ (p : Plant) (x : α), p.Upholds (f p x)) (xs : List α) (p : Plant) :
    p.Upholds (xs.foldl f p) := by
  induction xs generalizing p with
  | nil => exact .refl p
  | cons x xs ih => exact (hf p x).trans (ih _)

/-- A fold over zones, each of which comes to its turn as it was found: what the turn asks of its zone, no other's turn
changes. -/
theorem foldl_each {P : Plant → Zone → Prop} {f : Plant → Zone → Plant} (hf : ∀ p z, P p z → p.Upholds (f p z))
    (hp : ∀ p z y, y ≠ z → P p z → P p y → P (f p z) y) (zs : List Zone) (hn : zs.Nodup) :
    ∀ p, (∀ z ∈ zs, P p z) → p.Upholds (zs.foldl f p) := by
  induction zs with
  | nil => exact fun p _ => .refl p
  | cons z zs ih =>
    intro p h
    obtain ⟨hz, hzs⟩ := List.nodup_cons.1 hn
    have hpz := h z List.mem_cons_self
    exact (hf p z hpz).trans (ih hzs _ fun y hy => hp p z y (fun e => hz (e ▸ hy)) hpz (h y (List.mem_cons_of_mem _ hy)))

/-! ### Climate and fans -/

theorem formSetpoints (p : Plant) (z : Zone) (r : StepRecord) : p.Upholds (p.formSetpoints z r) :=
  .ite ((climate p z _).trans (raise _ _)) (climate p z _)

theorem startRamp (p : Plant) (z : Zone) (r : StepRecord) (start : RampFrom) : p.Upholds (p.startRamp z r start) :=
  (formSetpoints p z r).trans (climate _ z _)

theorem reverseIfDue (p : Plant) (z : Zone) : p.Upholds (p.reverseIfDue z) := .ite (.output p z _ id) (.refl p)

theorem setInterval (p : Plant) (z : Zone) (n : Nat) : p.Upholds (p.setInterval z n) :=
  (fan p z _ id).trans (reverseIfDue _ z)

/-- The reversal count stops at 720 (R125). -/
theorem fanMinute (p : Plant) (z : Zone) : p.Upholds (p.fanMinute z) :=
  .ite ((fan p z _ fun _ => bump_le 720 _).trans (reverseIfDue _ z)) (.refl p)

/-! ### Holding -/

theorem enterHeld (p : Plant) (z : Zone) (h : (p.ctx z).state.inPhase = true) : p.Upholds (p.enterHeld z) := by
  refine ((Plant.Upholds.zone p z _ ⟨fun hc => ⟨?_, ?_⟩, fun hb => ?_⟩).trans (record _ z .held none)).trans
    (queueCheckpoint _ z)
  · change (p.ctx z).state.phase?.isSome = true
    cases hs : (p.ctx z).state <;> simp [hs, ZoneState.inPhase, ZoneState.phase?] at h ⊢
  · exact hc.unharmed fun hs => by rw [Plant.ctx_eq, hs] at h; cases h
  · exact ⟨hb.runRecord, hb.dropped, Nat.zero_le _, hb.reversals⟩

theorem applyHold (p : Plant) (z : Zone) (h : (p.ctx z).state.inPhase = true) : p.Upholds (p.applyHold z) :=
  .ite (.context p z _ ⟨rfl, rfl, rfl, rfl, fun _ => Nat.zero_le _⟩) (enterHeld p z h)

theorem joinHold (p : Plant) (z : Zone) (f : HoldCauses → HoldCauses) : p.Upholds (p.joinHold z f) := by
  have hq : p.Upholds (p.context z fun c => { c with holds := f c.holds }) := .context p z _ ⟨rfl, rfl, rfl, rfl, id⟩
  unfold Plant.joinHold
  dsimp only
  split
  · next hs =>
    refine .ite (hq.trans (applyHold _ z ?_)) hq
    rw [Plant.ctx_context_self, hs]
    rfl
  · exact hq
  · exact .refl p

theorem rampComplete (p : Plant) (z : Zone) : p.Upholds (p.rampComplete z) := by
  unfold Plant.rampComplete
  split
  · next h => exact enterHeld p z (Bool.and_eq_true_iff.1 h).1
  · exact .refl p

theorem reportRamp {p : Plant} (z : Zone) (h : p.Upholds q) : p.Upholds (p.reportRamp q z) :=
  .ite (h.trans (rampComplete q z)) h

/-! ### Entries -/

theorem enterIdle (p : Plant) (z : Zone) : p.Upholds (p.enterIdle z) :=
  (Plant.Upholds.zone p z _
    ⟨fun _ => .plain (by nofun) (by nofun) rfl rfl, fun h => ⟨h.runRecord, h.dropped, Nat.zero_le _, h.reversals⟩⟩).trans
    (queueCheckpoint _ z)

theorem enterDone (p : Plant) (z : Zone) : p.Upholds (p.enterDone z) :=
  (((Plant.Upholds.zone p z _
    ⟨fun _ => .plain (by nofun) (by nofun) rfl rfl, fun h => ⟨h.runRecord, h.dropped, Nat.zero_le _, h.reversals⟩⟩).trans
    (record _ z .done none)).trans (raise _ _)).trans (queueCheckpoint _ z)

/-- Step entry from any state but SAFE (R83). -/
theorem enterStep (p : Plant) (z : Zone) (ph : Phase) (i : Fin 128) (start : RampFrom) (h : (p.ctx z).state ≠ .safe) :
    p.Upholds (p.enterStep z ph i start) := by
  have hq : p.Upholds (p.context z fun c =>
      { c with
        state := .phase ph, underlying := none, stepIndex := some i, activeCopy := p.work.records.get i, stepClock := 0,
        eligible := none, waiting := false, waitCount := 0 }) :=
    .zone p z _ ⟨fun hc => .plain nofun nofun rfl (hc.unharmed h),
      fun hb => ⟨hb.runRecord, hb.dropped, Nat.zero_le _, hb.reversals⟩⟩
  unfold Plant.enterStep
  refine Plant.Upholds.trans (Plant.Upholds.trans ?_ (raise _ _)) (queueCheckpoint _ z)
  split
  · exact (hq.trans (startRamp _ z _ start)).trans (setInterval _ z _)
  · exact hq

/-! ### Eligibility and advance -/

theorem advance (p : Plant) (z : Zone) : p.Upholds (p.advance z) := by
  unfold Plant.advance
  dsimp only
  split
  · next ph i hs hi =>
    have hr := record p z .stepLeft (p.ctx z).eligible
    have hstate : ((p.record z .stepLeft (p.ctx z).eligible).ctx z).state = .phase ph := by
      rw [Plant.record_eq, Plant.put_ctx_self]
      exact hs
    have hleft : ∀ q : Plant, p.Upholds q → (q.ctx z).state = .phase ph →
        p.Upholds (match (p.work.entries.get z).following ph i (((p.ctx z).activeCopy.map StepRecord.last).getD false) with
          | some (ph', j) => q.enterStep z ph' j .current
          | none => q.enterDone z) := by
      intro q hq hs
      split
      · exact hq.trans (enterStep q z _ _ _ (by rw [hs]; nofun))
      · exact hq.trans (enterDone q z)
    refine hleft _ (.ite (hr.trans (raise _ _)) hr) ?_
    split <;> exact hstate
  · exact .refl p

theorem judgeRelease (p : Plant) : p.Upholds p.judgeRelease := .ite (.foldl advance _ p) (.refl p)

theorem becomeEligible (p : Plant) (z : Zone) (reason : ExitReason) : p.Upholds (p.becomeEligible z reason) := by
  have hq : p.Upholds (p.context z fun c => { c with eligible := some reason }) :=
    .context p z _ ⟨rfl, rfl, rfl, rfl, id⟩
  exact .ite (.ite hq (hq.trans (.context _ z _ ⟨rfl, rfl, rfl, rfl, fun _ => Nat.zero_le _⟩))) (hq.trans (advance _ z))

theorem evaluateAlone (p : Plant) (z : Zone) : p.Upholds (p.evaluateAlone z) := by
  unfold Plant.evaluateAlone
  dsimp only
  split
  · refine .ite (.refl p) ?_
    split
    · exact becomeEligible p z _
    · exact .refl p
  · exact .refl p

theorem evaluate (p : Plant) (z : Zone) : p.Upholds (p.evaluate z) := (evaluateAlone p z).trans (judgeRelease _)

/-! ### Leaving a hold -/

theorem returnToPhase (p : Plant) (z : Zone) (h : (p.ctx z).state = .held) : p.Upholds (p.returnToPhase z) := by
  unfold Plant.returnToPhase
  split
  · exact .refl p
  · refine (((Plant.Upholds.zone p z _ ⟨fun hc => .plain (by nofun) (by nofun) rfl (hc.unharmed ?_), fun hb => ?_⟩).trans
      (record _ z .resumed none)).trans (queueCheckpoint _ z)).trans (evaluateAlone _ z)
    · rw [← Plant.ctx_eq, h]; nofun
    · exact ⟨hb.runRecord, hb.dropped, hb.waitCount, hb.reversals⟩

theorem leaveHold (p : Plant) (z : Zone) (f : HoldCauses → HoldCauses) : p.Upholds (p.leaveHold z f) := by
  have hq : p.Upholds (p.context z fun c => { c with holds := f c.holds }) := .context p z _ ⟨rfl, rfl, rfl, rfl, id⟩
  unfold Plant.leaveHold
  dsimp only
  split
  · next hs => exact .ite hq (hq.trans (returnToPhase _ z (by rw [Plant.ctx_context_self]; exact hs)))
  · exact .ite ((hq.trans (.context _ z _ ⟨rfl, rfl, rfl, rfl, id⟩)).trans (evaluateAlone _ z)) hq
  · exact .refl p

/-! ### SAFE -/

/-- A change of a safe-cause set, with the SAFE entry or exit it decides, keeps the form: causes in SAFE alone (R133). -/
theorem changeCauses (p : Plant) (z : Zone) (f : SafeCauses → SafeCauses) : p.Upholds (p.changeCauses z f) := by
  have h := p.changeCauses_caused z f
  generalize f (p.unit z).causes = causes at h
  have only := Plant.Only.changeCauses p z f
  generalize p.changeCauses z f = q at h only
  intro y
  by_cases hy : y = z
  · subst hy
    by_cases hw : (p.ctx y).state.watched = true
    · by_cases hs : (p.ctx y).state = .safe
      · by_cases hc : causes.any = true
        · rw [h.remains hs hc, Plant.put_unit_self]
          refine ⟨fun hu => ⟨hu.underlying, hc.trans ?_⟩, fun hb => ⟨hb.runRecord, hb.dropped, hb.waitCount, hb.reversals⟩⟩
          exact (beq_iff_eq.2 hs).symm
        · rw [h.leaves hs (by simpa using hc), Plant.enqueue_unit, Plant.put_unit_self]
          exact .released hs _ _
      · have hr : (p.ctx y).state = .held ∨ (p.ctx y).state.inPhase = true := by
          cases hst : (p.ctx y).state <;> simp_all [ZoneState.watched, ZoneState.inPhase]
        by_cases hc : causes.any = true
        · have hsec := h.enters hr hc
          unfold Plant.Secured at hsec
          rw [hsec, Plant.enqueue_unit, Plant.put_unit_self]
          exact .secured hr hc _
        · rw [h.stays hr (by simpa using hc), Plant.put_unit_self]
          refine ⟨fun hu => ⟨hu.underlying, ?_⟩, fun hb => ⟨hb.runRecord, hb.dropped, hb.waitCount, hb.reversals⟩⟩
          exact (Bool.not_eq_true _ ▸ hc).trans (beq_eq_false_iff_ne.2 hs).symm
    · rw [h.rests (by simpa using hw)]
      exact .refl _
  · rw [only.others y hy]
    exact .refl _

theorem judgeWatched (p : Plant) (z : Zone) : p.Upholds (p.judgeWatched z) := changeCauses p z _

/-! ### Starting -/

theorem enterFirstPhase (p : Plant) (z : Zone) (h : (p.ctx z).state = .starting) : p.Upholds (p.enterFirstPhase z) := by
  unfold Plant.enterFirstPhase
  split
  · exact .refl p
  · next ph i _ =>
    have hr := ((Plant.Upholds.context p z
      (fun c => { c with startTimeout := none, ready := false, minuteTimer := some 60000 })
      ⟨rfl, rfl, rfl, rfl, id⟩).trans (enterStep _ z ph i .measured (by rw [Plant.ctx_context_self, h]; nofun))).trans
        (record _ z .started none)
    exact (Plant.Upholds.ite (hr.trans (joinHold _ z fun x => { x with line := true })) hr).trans (judgeWatched _ z)

theorem judgeGroup (p : Plant) : p.Upholds p.judgeGroup := by
  have h0 := groupTimeout p none
  refine .ite h0 (.ite (h0.trans ?_) (.refl p))
  refine .foldl_each (P := fun q z => (q.ctx z).state = .starting) enterFirstPhase (fun q z y hy _ h => ?_) _
    ((by decide : Zone.order.Nodup).filter _) _ fun z hz => ?_
  · rw [Plant.ctx_eq, (Plant.Only.enterFirstPhase q z).others y hy]
    exact h
  · exact ((p.mem_startingSet z).1 hz).2

theorem markReady (p : Plant) (z : Zone) : p.Upholds (p.markReady z) := .context p z _ ⟨rfl, rfl, rfl, rfl, id⟩

theorem evaluateStart (p : Plant) (z : Zone) : p.Upholds (p.evaluateStart z) := by
  have hq := markReady p z
  unfold Plant.evaluateStart
  split
  · next hs =>
    refine .ite (hq.trans (judgeGroup _)) (.ite (hq.trans (enterFirstPhase _ z ?_)) hq)
    rw [Plant.markReady, Plant.ctx_context_self]
    exact hs
  · exact .refl p

theorem putStarting (p : Plant) (z : Zone) (source : StartSource) (h : (p.ctx z).state = .idle) :
    p.Upholds (p.putStarting z source) := by
  refine .zone p z _ ⟨fun hc => .plain nofun nofun rfl (hc.unharmed ?_), fun hb => ?_⟩
  · rw [← Plant.ctx_eq, h]; nofun
  · exact ⟨Nat.zero_le _, Nat.zero_le _, Nat.zero_le _, Nat.zero_le _⟩

theorem startAlone (p : Plant) (z : Zone) (source : StartSource) (h : (p.ctx z).state = .idle) :
    p.Upholds (p.startAlone z source) :=
  ((putStarting p z source h).trans (.context _ z _ ⟨rfl, rfl, rfl, rfl, id⟩)).trans (evaluateStart _ z)

theorem failStart (p : Plant) (z : Zone) (f : StartFailure) : p.Upholds (p.failStart z f) :=
  (Plant.Upholds.context p z _ ⟨rfl, rfl, rfl, rfl, id⟩).trans (raise _ _)

theorem takeMember (p : Plant) (z : Zone) (source : StartSource) (h : (p.ctx z).state = .idle) :
    p.Upholds (p.takeMember z source) := by
  unfold Plant.takeMember
  split
  · exact failStart p z _
  · exact putStarting p z source h

theorem groupStart (p : Plant) (source : StartSource) (initiating : Zone → Bool) :
    p.Upholds (p.groupStart source initiating) := by
  unfold Plant.groupStart
  dsimp only
  have ht : p.Upholds
      ((Zone.order.filter fun z => p.grouped z && (p.ctx z).state == .idle).foldl
        (fun q z => q.takeMember z (if initiating z then source else .group)) p) := by
    refine .foldl_each (P := fun q z => (q.ctx z).state = .idle) (fun q z h => takeMember q z _ h)
      (fun q z y hy _ h => ?_) _ ((by decide : Zone.order.Nodup).filter _) _ fun z hz => ?_
    · rw [Plant.ctx_eq, (Plant.Only.takeMember q z _).others y hy]
      exact h
    · rw [List.mem_filter, Bool.and_eq_true, beq_iff_eq] at hz
      exact hz.2.2
  refine .ite ht ?_
  exact ((Plant.Upholds.ite (ht.trans (.groupTimeout _ _)) ht).trans (.foldl markReady _ _)).trans (judgeGroup _)

theorem startEvent (p : Plant) (source : StartSource) (inMask : StartMask → Bool) :
    p.Upholds (p.startEvent source inMask) := by
  unfold Plant.startEvent
  dsimp only
  have ht : p.Upholds
      ((Zone.order.filter fun z => ((p.ctx z).state == .idle && inMask (p.items z).startMask) && !p.grouped z).foldl
        (fun q z =>
          match p.startObstacle z source with
          | some f => q.failStart z f
          | none => q.startAlone z source) p) := by
    refine .foldl_each (P := fun q z => (q.ctx z).state = .idle ∧ q.grouped z = false) (fun q z h => ?_)
      (fun q z y hy h k => ?_) _ ((by decide : Zone.order.Nodup).filter _) _ fun z hz => ?_
    · split
      · exact failStart q z _
      · exact startAlone q z source h.1
    · split
      · rw [Plant.ctx_eq, (Plant.Only.failStart q z _).others y hy]
        exact k
      · rw [Plant.ctx_eq, (Plant.Only.startAlone q z source h.2).others y hy]
        refine ⟨k.1, ?_⟩
        rw [Plant.grouped, Plant.items, (Plant.Kept.startAlone q z source).work]
        exact k.2
    · simp only [List.mem_filter, Bool.and_eq_true, beq_iff_eq, Bool.not_eq_true'] at hz
      exact ⟨hz.2.1.1, hz.2.2⟩
  exact .ite (ht.trans (groupStart _ source _)) ht

theorem timeoutStart (p : Plant) (z : Zone) : p.Upholds (p.timeoutStart z) :=
  (failStart p z _).trans (enterIdle _ z)

/-! ### Resumption -/

theorem takenUp (p : Plant) (z : Zone) (x : StepRecord) {w : ZoneUnit} (h : (p.unit z).Upholds w) :
    p.Upholds (p.takenUp z x w) := by
  have hz := Plant.Upholds.zone (p.raiseIf (decide (p.kiln.maximumDb < x.db)) (.zone z .targetClamped)) z (fun _ => w)
    (by rw [Plant.raiseIf_unit]; exact h)
  exact ((raiseIf p _ _).trans hz).trans (enqueue _ _)

/-- A run taken up in a phase state, or in HELD over one (R166). -/
theorem resumed (u : ZoneUnit) (k : Checkpoint) (i : Fin 128) (x : StepRecord) (holdIn host : Bool) (climate : ClimateState)
    {st : ZoneState} {under : Option Phase} (hst : st ≠ .safe) (hu : under.isSome = (st == .held))
    (hs : u.ctx.state ≠ .safe) : u.Upholds (u.resumed k i x holdIn st under host climate) where
  form hc := ⟨by rw [show (u.resumed k i x holdIn st under host climate).ctx.underlying = under from rfl, hu,
      show (u.resumed k i x holdIn st under host climate).ctx.state = st from rfl]; simp [hst],
    (hc.unharmed hs).trans (beq_eq_false_iff_ne.2 hst).symm⟩
  bounds hb := by
    have hg := (ZoneUnit.Upholds.gain u
      { kind := .restarted, minute := k.runClock, step := some i, reason := none, cmc := u.aggregate.cmc,
        dmc := u.aggregate.dmc }).bounds hb
    exact ⟨hg.runRecord, hg.dropped, Nat.zero_le _, Nat.zero_le _⟩

/-- The run of a checkpoint whose validation found nothing is taken up (R67, R166). -/
theorem resumeRun (p : Plant) (z : Zone) (k : Checkpoint) (h : (p.ctx z).state = .resumePending)
    (hv : p.validateResume z k = none) : p.Upholds (p.resumeRun z k) := by
  have hns : (p.unit z).ctx.state ≠ .safe := by rw [← Plant.ctx_eq, h]; nofun
  obtain ⟨ph, i, x, hk, hi, hx⟩ := Plant.validateResume_names hv
  rcases hk with hk | hk
  · rw [Plant.resumeRun_phase hk hi hx]
    have ht : p.Upholds (p.phaseTaken z k ph i x) :=
      takenUp p z x (resumed _ k i x _ _ _ (st := .phase ph) (under := none) nofun rfl hns)
    refine ((Plant.Upholds.ite (ht.trans (applyHold _ z ?_)) ht).trans (judgeWatched _ z)).trans (evaluateAlone _ z)
    rw [Plant.ctx_eq, Plant.phaseTaken, Plant.takenUp_unit]
    rfl
  · rw [Plant.resumeRun_held hk hi hx]
    exact ((takenUp p z x (resumed _ k i x _ _ _ (st := .held) (under := some ph) nofun rfl hns)).trans
      (judgeWatched _ z)).trans (evaluateAlone _ z)

theorem tryResume (h : p.tryResume z = .inr q) (hs : (p.ctx z).state = .resumePending) : p.Upholds q := by
  cases hv : p.validateResume z ((p.ctx z).resumeFrom.getD {}) with
  | some f => rw [Plant.tryResume_finding hv] at h; cases h
  | none =>
    rw [Plant.tryResume_resumed hv] at h
    cases h
    exact (resumeRun p z _ hs hv).trans (judgeRelease _)

theorem autoResume (p : Plant) (z : Zone) : p.Upholds (p.autoResume z) := by
  unfold Plant.autoResume
  split
  · next h =>
    split
    · exact raise p _
    · next hq => exact tryResume hq h.1
  · exact .refl p

end Plant.Upholds
end Sys2Proof.Machine
end

section
/-! SUPPORT. Proofs: the form and the bounds through the passes, the lines, the restart, every request and every event, and the
statement on them (O58). -/

namespace Sys2Proof.Machine

theorem Plant.Only.restoreZone (p : Plant) (z : Zone) : Plant.Only z p (p.restoreZone z) := by
  unfold Plant.restoreZone
  split
  · exact ((Plant.Only.queueCheckpoint p z).trans (.soundAlarm _)).trans (.raise _ _)
  · split
    · exact .refl p
    · exact .context p z _
    · exact (Plant.Only.context p z _).trans (.raise _ _)

/-- The timers that a restart starts leave a zone's context but for its minute timer. -/
theorem Plant.startedTimers_ctx (p : Plant) (z : Zone) :
    (p.eachZone Plant.startTimers).ctx z = { p.ctx z with minuteTimer := some 60000 } := by
  rw [Plant.eachZone_eq]
  unfold Plant.startTimers
  cases z <;> simp [Plant.ctx_eq]

namespace Plant.Upholds

variable {p q r : Plant} {z : Zone}

/-! ### Passes and the arbiter -/

theorem replaceAggregate (p : Plant) (z : Zone) : p.Upholds (p.replaceAggregate z) := by
  have hq := Plant.Upholds.zone p z (fun u => { u with aggregate := p.formAggregate z })
    (.of_form ⟨rfl, rfl, rfl⟩ fun h => ⟨h.runRecord, h.dropped, h.waitCount, h.reversals⟩)
  exact .ite (hq.trans (raise _ _)) hq

theorem endPass (p : Plant) (z : Zone) : p.Upholds (p.endPass z) := by
  have hq := (pass p z fun s => { s with progress := none }).trans (replaceAggregate _ z)
  exact .ite (hq.trans (evaluateStart _ z)) (hq.trans (evaluate _ z))

theorem startPass (p : Plant) (z : Zone) : p.Upholds (p.startPass z) := .ite (endPass p z) (pass p z _)

theorem completePass (p : Plant) (z : Zone) : p.Upholds (p.completePass z) :=
  .ite (((endPass p z).trans (pass _ z _)).trans (startPass _ z)) (endPass p z)

theorem movePast (p : Plant) (z : Zone) : p.Upholds (p.movePast z) := by
  unfold Plant.movePast
  split
  · exact .refl p
  · exact .ite (completePass p z) (pass p z _)

theorem soundAlarm (p : Plant) : p.Upholds p.soundAlarm := .of_zones rfl

theorem startMeasurement (p : Plant) (who : Requester) (i : Fin 64) : p.Upholds (p.startMeasurement who i) := .of_zones rfl

theorem grant (fuel : Nat) (p : Plant) : p.Upholds (p.grant fuel) := by
  induction fuel generalizing p with
  | zero => exact .refl p
  | succ fuel ih =>
    unfold Plant.grant
    refine .ite (.refl p) ?_
    split
    · exact .refl p
    · split
      · exact .of_zones rfl
      · exact .refl p
    · next z arbiter _ =>
      split
      · exact .refl p
      · split
        · exact (completePass p z).trans (ih _)
        · have ha : p.Upholds { p with arbiter := arbiter } := .of_zones rfl
          exact (ha.trans (pass _ z _)).trans (startMeasurement _ _ _)

theorem arbitrate (p : Plant) : p.Upholds p.arbitrate := grant 9 p

theorem judge (p : Plant) (z : Zone) (i : Fin 64) (kind : ProbeKind) (raw : Int) : p.Upholds (p.judge z i kind raw) := by
  unfold Plant.judge
  dsimp only
  split
  · exact .refl p
  · split
    · exact .ite (.of_zones rfl) (.of_zones rfl)
    · exact .ite (.of_zones rfl) (.of_zones rfl)
    · exact .of_zones rfl

theorem handOver (p : Plant) (m : Measurement) (raw : Int) : p.Upholds (p.handOver m raw) := by
  unfold Plant.handOver
  split
  · exact (Plant.Upholds.ite (.refl p) (judge p _ _ _ _)).trans ((pass _ _ _).trans (movePast _ _))
  · exact .ite (.of_zones rfl) (.of_zones rfl)

theorem completeMeasurement (p : Plant) (samples : List Int) : p.Upholds (p.completeMeasurement samples) := by
  unfold Plant.completeMeasurement
  split
  · exact .refl p
  · next m _ =>
    have hq : p.Upholds { p with frontEnd := { p.frontEnd with inFlight := none }, mux := p.straps.muxOff p.mux } :=
      .of_zones rfl
    exact (hq.trans (handOver _ m _)).trans (arbitrate _)

theorem markStale (p : Plant) (i : Fin 64) (f : Requester → Bool) : p.Upholds (p.markStale i f) := by
  unfold Plant.markStale
  split
  · exact .ite (.of_zones rfl) (.refl p)
  · exact .refl p

theorem passExpiry (p : Plant) (z : Zone) : p.Upholds (p.passExpiry z) :=
  have hq := pass p z fun s => { s with timer := Timer.minutes (p.items z).passInterval }
  .ite (hq.trans (pass _ z _)) ((hq.trans (startPass _ z)).trans (arbitrate _))

/-! ### Lines -/

theorem eachZone {f : Plant → Zone → Plant} (hf : ∀ (p : Plant) (z : Zone), p.Upholds (f p z)) (p : Plant) : p.Upholds (p.eachZone f) :=
  .foldl hf _ p

theorem deliver (before after : Plant) (role : LineRole) (z : Zone) (pressed : Bool) :
    after.Upholds (before.deliver after role z pressed) := by
  unfold Plant.deliver
  split
  · exact .ite ((eachZone (fun q y => changeCauses q y _) after).trans (eachZone evaluateStart _)) (.refl after)
  · exact evaluateStart after z
  · exact .ite (startEvent after _ _) (.refl after)
  · split
    · exact eachZone (fun q y => joinHold q y _) after
    · exact (eachZone (fun q y => .ite (leaveHold q y _) (.refl q)) after).trans (judgeRelease _)
    · exact .refl after
  · exact .refl after

theorem line (p : Plant) (i : Fin 16) (f : LineState → LineState) : p.Upholds (p.line i f) := .of_zones rfl

theorem takeLevel (p : Plant) (i : Fin 16) (level : Bool) : p.Upholds (p.takeLevel i level) :=
  have hq := line p i fun l => { l with debounced := level, settled := true, timer := none }
  .ite (hq.trans (deliver p _ _ _ _)) hq

theorem beginSettling (p : Plant) (i : Fin 16) : p.Upholds (p.beginSettling i) :=
  have hq := line p i fun l =>
    { l with debounced := false, settled := false, timer := some (debounceTime (p.lineItems i).debounce) }
  .ite (hq.trans (takeLevel _ i _)) hq

theorem pinChange (p : Plant) (i : Fin 16) (high : Bool) : p.Upholds (p.pinChange i high) :=
  have hq := line p i fun l => { l with external := high }
  .ite hq (.ite (hq.trans (line _ i _)) (.ite (hq.trans (takeLevel _ i _)) (hq.trans (line _ i _))))

theorem debounceExpiry (p : Plant) (i : Fin 16) : p.Upholds (p.debounceExpiry i) := .ite (.refl p) (takeLevel p i _)

theorem configureLine (p : Plant) (i : Fin 16) (c : LineConfig) : p.Upholds (p.configureLine i c) := by
  have hq := line p i fun l => { l with latch := false }
  have hleft := fun (b : Bool) (f : LineState → LineState) =>
    Plant.Upholds.ite (c := b = true)
      ((hq.trans (line _ i f)).trans
        (deliver (p.line i fun l => { l with latch := false }) _ (p.lineItems i).role (p.lineItems i).zone false)) hq
  have hquiet : ∀ x : Plant, p.Upholds x → p.Upholds ((x.putLineItems i c).line i fun l =>
      { l with debounced := false, settled := false, timer := none }) := fun x h => h.trans (.of_zones rfl)
  exact .ite (.of_zones rfl) (.ite (hquiet _ (hleft _ _)) ((hquiet _ (hleft _ _)).trans (beginSettling _ i)))

/-! ### The end of an event -/

theorem settleProof (before after : Plant) (z : Zone) : after.Upholds (Machine.settleProof before after z) := by
  have hz := fun (b : Bool) (t : Timer) => Plant.Upholds.zone after z
    (fun u => { u with proofOverdue := b, output := { u.output with proofTimer := t } })
    (.of_form ⟨rfl, rfl, rfl⟩ fun h => ⟨h.runRecord, h.dropped, h.waitCount, h.reversals⟩)
  unfold Machine.settleProof
  split
  · exact hz _ _
  · exact hz _ _
  · exact .refl after

theorem settlePins (p : Plant) : p.Upholds p.settlePins := fun z => by
  rw [Plant.settlePins_unit]
  exact .of_form ⟨rfl, rfl, rfl⟩ fun h => ⟨h.runRecord, h.dropped, h.waitCount, h.reversals⟩

theorem settle (before : Plant) (h : p.Upholds q) : p.Upholds (Machine.settle before q) :=
  (h.trans (eachZone (settleProof before) q)).trans (settlePins _)

/-! ### Resets -/

/-- A reset leaves every zone fresh. -/
theorem quiet (p q : Plant) : p.Upholds q.quiet := fun z => by
  rw [show q.quiet.unit z = {} from PerZone.get_all _ z]
  exact .fresh _

theorem startTimers (p : Plant) (z : Zone) : p.Upholds (p.startTimers z) :=
  .zone p z _ (.of_form ⟨rfl, rfl, rfl⟩ fun h => ⟨h.runRecord, h.dropped, h.waitCount, h.reversals⟩)

/-- A zone that a reset has left fresh takes its state from its checkpoint: none of them is HELD or SAFE (R164). -/
theorem restoreZone (p : Plant) (z : Zone) (h : (p.ctx z).state = .idle) (hu : (p.ctx z).underlying = none) :
    p.Upholds (p.restoreZone z) := by
  have restored : ∀ f : ZoneContext → ZoneContext, (f (p.ctx z)).state ≠ .held → (f (p.ctx z)).state ≠ .safe →
      (∀ c, ({ c with state := (f c).state } : ZoneContext).Alike (f c)) → p.Upholds (p.context z f) := by
    intro f hh hs hf
    have ha := hf (p.ctx z)
    exact .zone p z _ ⟨fun hc => .plain hh hs (ha.underlying.trans hu) (hc.unharmed (by rw [← Plant.ctx_eq, h]; nofun)),
      fun hb => ⟨ha.runRecord ▸ hb.runRecord, ha.dropped ▸ hb.dropped, ha.waitCount hb.waitCount, hb.reversals⟩⟩
  unfold Plant.restoreZone
  split
  · exact ((queueCheckpoint p z).trans (soundAlarm _)).trans (raise _ _)
  · split
    · exact .refl p
    · exact restored _ nofun nofun fun _ => ⟨rfl, rfl, rfl, rfl, id⟩
    · refine Plant.Upholds.trans ?_ (raise _ _)
      exact restored _ nofun nofun fun _ => ⟨rfl, rfl, rfl, rfl, id⟩

theorem markUnreachable (p : Plant) : p.Upholds p.markUnreachable :=
  have hq : p.Upholds { p with records := Table.tabulate 64 fun i => p.freshRecord (p.work.probes.get i) } := .of_zones rfl
  hq.trans (raiseIf _ _ _)

theorem settleLines (p : Plant) : p.Upholds p.settleLines := .foldl (fun x i => .ite (.refl x) (beginSettling x i)) _ p

/-- Each zone reads its checkpoint as the reset has left it, but for its timers. -/
theorem restoreZones (p : Plant) (h : ∀ z, (p.ctx z).state = .idle ∧ (p.ctx z).underlying = none) :
    p.Upholds (p.eachZone Plant.restoreZone) :=
  .foldl_each (P := fun x z => (x.ctx z).state = .idle ∧ (x.ctx z).underlying = none)
    (fun x z h => restoreZone x z h.1 h.2)
    (fun x z y hy _ h => by rw [Plant.ctx_eq, (Plant.Only.restoreZone x z).others y hy]; exact h)
    _ (by decide) p fun z _ => h z

/-- Every zone stands as it follows from a reset alone. -/
theorem restart (p q : Plant) (straps : Straps) : p.Upholds (q.restart straps) := by
  have hbase : p.Upholds { q.quiet with straps := straps, work := q.store.load } := (quiet p q).trans (.of_zones rfl)
  have hidle : ∀ z, ({ q.quiet with straps := straps, work := q.store.load } : Plant).unit z = {} := PerZone.get_all _
  unfold Plant.restart
  dsimp only
  generalize ({ q.quiet with straps := straps, work := q.store.load } : Plant) = base at hbase hidle
  have halerted := ((hbase.trans (raiseIf base q.store.defaulted (.device .storeDefaulted))).trans (markUnreachable _)).trans
    (raise _ (.device .resetSeen))
  have hfresh : ∀ z, (((base.raiseIf q.store.defaulted (.device .storeDefaulted)).markUnreachable).raise
      (.device .resetSeen)).unit z = {} := fun z => by
    rw [Plant.raise_unit, Plant.markUnreachable, Plant.raiseIf_unit]
    exact (Plant.raiseIf_unit _ _ _ z).trans (hidle z)
  generalize ((base.raiseIf q.store.defaulted (.device .storeDefaulted)).markUnreachable).raise (.device .resetSeen) =
    alerted at halerted hfresh
  have hzoned := (halerted.trans (eachZone startTimers _)).trans (restoreZones _ fun z => ?_)
  · exact (((hzoned.trans (settleLines _)).trans (eachZone startPass _)).trans (arbitrate _)).trans (settlePins _)
  · rw [Plant.startedTimers_ctx, Plant.ctx_eq, hfresh]
    exact ⟨rfl, rfl⟩

end Plant.Upholds

/-! ### What the owners of requests do -/

namespace Plant.Upholds

variable {p q r : Plant} {z : Zone}

theorem reload (p : Plant) (z : Zone) (x : StepRecord) : p.Upholds (p.reload z x) := by
  have hq := (Plant.Upholds.context p z (fun c => { c with activeCopy := some x }) ⟨rfl, rfl, rfl, rfl, id⟩).trans
    (formSetpoints _ z x)
  exact (Plant.Upholds.ite (hq.trans (climate _ z _)) hq).trans (setInterval _ z _)

theorem reloadStep (p : Plant) (z : Zone) : p.Upholds (p.reloadStep z) := by
  unfold Plant.reloadStep
  split
  · exact .refl p
  · exact (reportRamp z (reload p z _)).trans (evaluate _ z)

/-- An abort from any state but SAFE (R94). -/
theorem abortRun (p : Plant) (z : Zone) (ph : Phase) (h : (p.ctx z).state ≠ .safe) : p.Upholds (p.abortRun z ph) := by
  have hq := (Plant.Upholds.context p z
    (fun c => { c with holds := {}, holdPending := false, eligible := none, waiting := false, waitCount := 0 })
    ⟨rfl, rfl, rfl, rfl, fun _ => Nat.zero_le _⟩).trans (record _ z .aborted none)
  unfold Plant.abortRun
  refine .ite (hq.trans (enterIdle _ z)) ?_
  split
  · refine hq.trans (enterStep _ z _ _ _ ?_)
    rw [Plant.record_eq, Plant.put_ctx_self, Plant.ctx_context_self]
    exact h
  · exact hq.trans (enterIdle _ z)

theorem takeMaximum (p : Plant) (z : Zone) : p.Upholds (p.takeMaximum z) := by
  have hreform : p.Upholds (p.reform z) := by
    unfold Plant.reform
    split
    · exact formSetpoints p z _
    · exact .refl p
  have hq := hreform.trans (climate _ z fun c => c.clampTo p.kiln.maximumDb)
  exact reportRamp z (.ite (hq.trans (climate _ z _)) hq)

theorem takeSafeFan (p : Plant) (z : Zone) : p.Upholds (p.takeSafeFan z) := by
  refine .ite (fan p z _ fun h => ?_) (.refl p)
  unfold FanState.resetSafe
  split
  · exact h
  · split
    · exact Nat.zero_le _
    · exact h

theorem writeKiln (p : Plant) (k : KilnConfig) : p.Upholds (p.writeKiln k) := by
  have hq : p.Upholds (p.configure fun c => { c with kiln := k }) := .of_zones rfl
  have hr := fun (c : Prop) [Decidable c] => Plant.Upholds.ite (c := c) (hq.trans (eachZone takeMaximum _)) hq
  exact (Plant.Upholds.ite ((hr _).trans (eachZone takeSafeFan _)) (hr _)).trans (eachZone evaluateStart _)

theorem writeZone (p : Plant) (z : Zone) (c : ZoneConfig) : p.Upholds (p.writeZone z c) := by
  have hq : p.Upholds (p.configure fun x => { x with zones := x.zones.set z c }) := .of_zones rfl
  exact (Plant.Upholds.ite (hq.trans (pass _ z _)) hq).trans (evaluateStart _ z)

theorem recover (p : Plant) (z : Zone) : p.Upholds (p.recover z) := by
  have hq := changeCauses p z fun c => { c with fan := false, overtemp := false }
  exact .ite
    (.ite (hq.trans (.zone _ z _ (.of_form ⟨rfl, rfl, rfl⟩ fun h => ⟨h.runRecord, h.dropped, h.waitCount, h.reversals⟩)))
      (hq.trans (.zone _ z _ (.of_form ⟨rfl, rfl, rfl⟩ fun h => ⟨h.runRecord, h.dropped, h.waitCount, h.reversals⟩)))) hq

theorem overrides (p : Plant) (z : Zone) (f : OverrideTable → OverrideTable) : p.Upholds (p.overrides z f) :=
  output p z _ id

end Plant.Upholds

/-- What the owner of a request does breaks no zone's form and none of its bounds. -/
def Performance.Upholds (p : Plant) : Performance → Prop
  | .answered _ => True
  | .performed q _ => p.Upholds q

theorem Performance.Upholds.stored {p q : Plant} (h : p.Upholds q) (item : SectionName) (status : Status)
    (content : Content) : Performance.Upholds p (.stored q item status content) := h.trans (.enqueue q _)

theorem Performance.Upholds.refuse (p : Plant) (status : Status) : Performance.Upholds p (.refuse status) := trivial

theorem Performance.Upholds.read (p : Plant) (content : Content) : Performance.Upholds p (.read content) := trivial

/-- A change of the configuration alone. -/
theorem Performance.Upholds.configured (p : Plant) (f : Configuration → Configuration) (clamped : Bool) :
    Performance.Upholds p (.configured (p.configure f) clamped) :=
  .stored (.of_zones (by rfl)) _ _ _

section Owners

variable (p : Plant)

/-! ### Configuration -/

theorem performCwKiln_upholds (fields : RawKiln) : Performance.Upholds p (performCwKiln fields p) := by
  unfold performCwKiln
  split
  · exact .refuse p _
  · exact .stored (.writeKiln p _) _ _ _

theorem performCwZone_upholds (zone : Nat) (fields : RawZone) : Performance.Upholds p (performCwZone zone fields p) := by
  unfold performCwZone
  split
  · split
    · exact .refuse p _
    · exact .stored (.writeZone p _ _) _ _ _
  · exact .refuse p _

theorem performCwGroup_upholds (together limit : Nat) : Performance.Upholds p (performCwGroup together limit p) := by
  unfold performCwGroup
  split
  · exact .refuse p _
  · exact .configured p _ _

theorem performCwScan_upholds (mode favoured spotEnabled : Nat) :
    Performance.Upholds p (performCwScan mode favoured spotEnabled p) := by
  have hw : ∀ c, p.Upholds (p.writeScan c) := fun c => by
    unfold Plant.writeScan
    cases c.mode <;> exact .of_zones rfl
  unfold performCwScan
  split
  · split
    · exact .stored (hw _) _ _ _
    · exact .refuse p _
  · exact .refuse p _

theorem performCwWindow_upholds (window : Nat) (fields : RawWindow) :
    Performance.Upholds p (performCwWindow window fields p) := by
  unfold performCwWindow
  split
  · exact .configured p _ _
  · exact .refuse p _

theorem performCwDefault_upholds (settle samples : Nat) : Performance.Upholds p (performCwDefault settle samples p) := by
  unfold performCwDefault
  split
  · exact .configured p _ _
  · exact .refuse p _

theorem performCwLine_upholds (line : Nat) (fields : RawLine) : Performance.Upholds p (performCwLine line fields p) := by
  unfold performCwLine
  split
  · split
    · exact .refuse p _
    · exact .stored (.configureLine p _ _) _ _ _
  · exact .refuse p _

theorem performConfigurationRead_upholds (item index : Nat) :
    Performance.Upholds p (performConfigurationRead item index p) := by
  unfold performConfigurationRead
  dsimp only
  split <;> first | exact .read p _ | exact .refuse p _ | (split <;> first | exact .read p _ | exact .refuse p _)

/-! ### Probes, species and schedules -/

theorem performProbeWrite_upholds (entry : Nat) (fields : RawProbe) :
    Performance.Upholds p (performProbeWrite entry fields p) := by
  have hw : ∀ i c, p.Upholds (p.writeProbe i c) := fun i c => by
    have hq : p.Upholds
        { p with
          work := { p.work with probes := p.work.probes.set i c }
          records := p.records.set i (if c.zone.isSome then some {} else none) } := .of_zones rfl
    exact (hq.trans (.markStale _ i _)).trans (.ite (.of_zones rfl) (.refl _))
  unfold performProbeWrite
  split
  · split
    · exact .refuse p _
    · exact .stored (hw _ _) _ _ _
  · exact .refuse p _

theorem performProbeRead_upholds (entry : Nat) : Performance.Upholds p (performProbeRead entry p) := by
  unfold performProbeRead
  split
  · exact .read p _
  · exact .refuse p _

theorem performExcludeProbe_upholds (entry : Nat) : Performance.Upholds p (performExcludeProbe entry p) := by
  unfold performExcludeProbe
  split
  · exact .refuse p _
  · split
    · exact .refuse p _
    · next i _ _ r _ =>
      split
      · exact .refuse p _
      · exact .read p _
      · have hq : p.Upholds { p with records := p.records.set i (some r.exclude) } := .of_zones rfl
        exact hq.trans (.markStale _ i _)

theorem performReinstateProbe_upholds (entry : Nat) : Performance.Upholds p (performReinstateProbe entry p) := by
  unfold performReinstateProbe
  split
  · exact .refuse p _
  · split
    · exact .refuse p _
    · split
      · exact Plant.Upholds.of_zones rfl
      · exact Plant.Upholds.of_zones rfl
      · exact .refuse p _

theorem performSpotRequest_upholds (entry : Nat) : Performance.Upholds p (performSpotRequest entry p) := by
  unfold performSpotRequest
  split
  · exact .refuse p _
  · next i _ =>
    split
    · exact .refuse p _
    · split
      · exact .refuse p _
      · split
        · have hq : p.Upholds { p with spot := .waiting i } := .of_zones rfl
          exact hq.trans (.arbitrate _)
        · exact .refuse p _

theorem performSpotResult_upholds : Performance.Upholds p (performSpotResult p) := by
  unfold performSpotResult
  split
  · exact .refuse p _
  · trivial
  · trivial
  · exact Plant.Upholds.of_zones rfl

theorem performSpeciesWrite_upholds (group k : Nat) (knots : List Nat) :
    Performance.Upholds p (performSpeciesWrite group k knots p) := by
  unfold performSpeciesWrite
  split
  · exact .stored (.of_zones (by rfl)) _ _ _
  · exact .refuse p _

theorem performSpeciesRead_upholds (group : Nat) : Performance.Upholds p (performSpeciesRead group p) := by
  unfold performSpeciesRead
  split
  · exact .read p _
  · exact .refuse p _

theorem performSetCursor_upholds (index : Nat) : Performance.Upholds p (performSetCursor index p) := by
  unfold performSetCursor
  split
  · exact Plant.Upholds.of_zones rfl
  · exact .refuse p _

theorem performWriteRecord_upholds (record : Option RawStep) : Performance.Upholds p (performWriteRecord record p) := by
  have ho : ∀ x, Performance.Upholds p (p.offer x) := fun x => by
    unfold Plant.offer
    split
    · exact .refuse p _
    · exact .stored (.of_zones (by rfl)) _ _ _
  unfold performWriteRecord
  split
  · exact ho _
  · split
    · exact ho _
    · exact .refuse p _

theorem performEntryTableWrite_upholds (zone : Nat) (entries : RawEntries) :
    Performance.Upholds p (performEntryTableWrite zone entries p) := by
  unfold performEntryTableWrite
  split
  · split
    · exact .stored (.of_zones (by rfl)) _ _ _
    · exact .refuse p _
  · exact .refuse p _

theorem performEntryTableRead_upholds (zone : Nat) : Performance.Upholds p (performEntryTableRead zone p) := by
  unfold performEntryTableRead
  split
  · exact .read p _
  · exact .refuse p _

/-! ### Zones -/

theorem performStartZone_upholds (zone : Nat) : Performance.Upholds p (performStartZone zone p) := by
  unfold performStartZone
  split
  · exact .refuse p _
  · next z _ =>
    split
    · exact .refuse p _
    · split
      · exact .refuse p _
      · split
        · exact .refuse p _
        · next hs =>
          split
          · trivial
          · exact Plant.Upholds.ite (.groupStart p _ _) (.startAlone p z _ (not_not.1 hs))

theorem performHold_upholds (target : Nat) : Performance.Upholds p (performHold target p) := by
  have hall : ∀ zs : List Zone, p.Upholds (zs.foldl Plant.hostHold p).judgeRelease := fun zs =>
    (Plant.Upholds.foldl (fun q z => .joinHold q z _) zs p).trans (.judgeRelease _)
  unfold performHold
  split
  · exact hall _
  · split
    · exact .refuse p _
    · split
      · exact hall _
      · exact .refuse p _

theorem performResume_upholds (zone : Nat) : Performance.Upholds p (performResume zone p) := by
  have hall : ∀ zs : List Zone, p.Upholds (zs.foldl Plant.hostResume p).judgeRelease := fun zs =>
    (Plant.Upholds.foldl (fun q z => .ite (.leaveHold q z _) (.refl q)) zs p).trans (.judgeRelease _)
  unfold performResume
  split
  · exact .refuse p _
  · split
    · exact .refuse p _
    · split
      · next hs =>
        split
        · trivial
        · next hq => exact Plant.Upholds.tryResume hq hs
      · exact hall _
      · exact hall _
      · exact .refuse p _

theorem performSkip_upholds (zone : Nat) : Performance.Upholds p (performSkip zone p) := by
  unfold performSkip
  split
  · exact .refuse p _
  · split
    · exact (Plant.Upholds.becomeEligible p _ _).trans (.judgeRelease _)
    · exact .refuse p _

theorem performAbort_upholds (zone : Nat) : Performance.Upholds p (performAbort zone p) := by
  have hnote : ∀ z, p.Upholds ((p.record z .aborted).enterIdle z).judgeRelease := fun z =>
    ((Plant.Upholds.record p z .aborted none).trans (.enterIdle _ z)).trans (.judgeRelease _)
  unfold performAbort
  split
  · exact .refuse p _
  · next z _ =>
    split
    · next hs => exact (Plant.Upholds.abortRun p z _ (by rw [hs]; nofun)).trans (.judgeRelease _)
    · next hs _ => exact (Plant.Upholds.abortRun p z _ (by rw [hs]; nofun)).trans (.judgeRelease _)
    · exact hnote z
    · exact hnote z
    · exact (Plant.Upholds.enterIdle p z).trans (.judgeGroup _)
    · exact Plant.Upholds.enterIdle p z
    · exact .refuse p _
    · exact .refuse p _

theorem performReloadStep_upholds (zone : Nat) : Performance.Upholds p (performReloadStep zone p) := by
  unfold performReloadStep
  split
  · exact .refuse p _
  · split
    · exact Plant.Upholds.reloadStep p _
    · exact .refuse p _

theorem performClearDone_upholds (zone : Nat) : Performance.Upholds p (performClearDone zone p) := by
  unfold performClearDone
  split
  · exact .refuse p _
  · split
    · exact Plant.Upholds.enterIdle p _
    · exact .refuse p _

theorem performRecover_upholds (zone : Nat) : Performance.Upholds p (performRecover zone p) := by
  unfold performRecover
  split
  · exact .refuse p _
  · split
    · exact .refuse p _
    · split
      · exact .refuse p _
      · exact Plant.Upholds.recover p _

theorem performDelayedStartMinutes_upholds (minutes : Nat) :
    Performance.Upholds p (performDelayedStartMinutes minutes p) := by
  unfold performDelayedStartMinutes
  split
  · exact Plant.Upholds.of_zones rfl
  · exact .refuse p _

theorem performZoneRead_upholds (zone : Nat) : Performance.Upholds p (performZoneRead zone p) := by
  unfold performZoneRead
  split
  · exact .refuse p _
  · exact .read p _

theorem performRunRecordRead_upholds (zone position : Nat) :
    Performance.Upholds p (performRunRecordRead zone position p) := by
  unfold performRunRecordRead
  split
  · exact .refuse p _
  · split
    · exact .read p _
    · exact .refuse p _

/-! ### Outputs, field and lines -/

theorem Plant.Upholds.startLapse (p : Plant) : p.Upholds p.startLapse := .of_zones rfl

theorem performOverride_upholds (zone output value : Nat) : Performance.Upholds p (performOverride zone output value p) := by
  unfold performOverride
  split
  · split
    · exact .refuse p _
    · exact (Plant.Upholds.overrides p _ _).trans (.startLapse _)
  · exact .refuse p _

theorem performReleaseOverride_upholds (zone output : Nat) :
    Performance.Upholds p (performReleaseOverride zone output p) := by
  unfold performReleaseOverride
  split
  · exact (Plant.Upholds.overrides p _ _).trans (.ite (.refl _) (.of_zones rfl))
  · exact .refuse p _

theorem performRefreshOverrides_upholds : Performance.Upholds p (performRefreshOverrides p) :=
  Plant.Upholds.ite (p := p) (.of_zones rfl) (.refl p)

theorem performFieldEnable_upholds : Performance.Upholds p (performFieldEnable p) := by
  unfold performFieldEnable
  split
  · exact .read p _
  · have hq : p.Upholds { p with fieldEnabled := true } := .of_zones rfl
    exact hq.trans (.eachZone .autoResume _)

theorem performFieldDisable_upholds : Performance.Upholds p (performFieldDisable p) := by
  unfold performFieldDisable
  split
  · exact .refuse p _
  · split
    · exact .read p _
    · have hq : p.Upholds { p with fieldEnabled := false } := .of_zones rfl
      exact hq.trans (.eachZone (fun q z => .output q z _ id) _)

theorem performLineModify_upholds (mask values : Nat) : Performance.Upholds p (performLineModify mask values p) := by
  unfold performLineModify
  split
  · exact Plant.Upholds.of_zones rfl
  · exact .refuse p _

end Owners

/-! ### The link -/

/-- What an event does to the state breaks no zone's form, no bound, and leaves a gate that is BARRED as it is. -/
structure State.Upholds (s t : State) : Prop where
  plant : s.plant.Upholds t.plant
  checkErrors : s.link.checkErrors ≤ 65535 → t.link.checkErrors ≤ 65535
  overruns : s.link.overruns ≤ 65535 → t.link.overruns ≤ 65535
  gate : s.link.gate = .barred → t.link.gate = .barred

namespace State.Upholds

variable {s t r : State}

theorem refl (s : State) : s.Upholds s := ⟨.refl _, id, id, id⟩

theorem trans (h : s.Upholds t) (k : t.Upholds r) : s.Upholds r :=
  ⟨h.plant.trans k.plant, k.checkErrors ∘ h.checkErrors, k.overruns ∘ h.overruns, k.gate ∘ h.gate⟩

theorem ite {c : Prop} [Decidable c] (h : s.Upholds t) (k : s.Upholds r) : s.Upholds (if c then t else r) := by
  split <;> assumption

/-- A change of the plant alone. -/
theorem of_plant (s : State) {q : Plant} (h : s.plant.Upholds q) : s.Upholds { s with plant := q } := ⟨h, id, id, id⟩

/-- A change of the link that keeps its counters and its gate. -/
theorem of_link (s : State) (f : LinkState → LinkState) (hc : (f s.link).checkErrors = s.link.checkErrors)
    (ho : (f s.link).overruns = s.link.overruns) (hg : (f s.link).gate = s.link.gate) : s.Upholds (s.withLink f) :=
  ⟨.refl _, fun h => hc.trans_le h, fun h => ho.trans_le h, fun h => hg.trans h⟩

theorem hunt (s : State) : s.Upholds s.hunt := of_link s _ rfl rfl rfl

/-- An event of a part that runs. -/
theorem event (s : State) {f : Plant → Plant} (h : s.plant.Upholds (f s.plant)) : s.Upholds (s.event f) := by
  unfold State.event
  split
  · exact of_plant s (.settle _ h)
  · exact .refl s

theorem ask (s : State) {f : Plant → Performance} (h : Performance.Upholds s.plant (f s.plant)) :
    s.Upholds (s.ask f).1 := by
  unfold State.ask
  split
  · exact .refl s
  · next hq =>
    rw [hq] at h
    exact of_plant s (.settle _ h)

theorem perform {kind : RequestKind} {f : State → State × Answer} (h : s.Upholds (f s).1) :
    s.Upholds (s.perform kind f).1 := by
  unfold State.perform
  split
  · exact .refl s
  · exact h

theorem note {x : State × Answer} (h : s.Upholds x.1) (env : Envelope) (letters : Byte × Byte) :
    s.Upholds (State.note x env letters) := h.trans (of_link _ _ rfl rfl rfl)

/-- A frame that completes is taken, or counted as an overrun (R171). -/
theorem complete {f : State → State} (h : ∀ s : State, s.Upholds (f s)) (s : State) : s.Upholds (s.complete f) := by
  unfold State.complete
  split
  · refine .ite (.refl s) (.ite ⟨.refl _, id, fun _ => bump_le _ _, id⟩ ((hunt s).trans (h _)))
  · exact .refl s

theorem take {f : State → State × Answer} (h : ∀ s : State, s.Upholds (f s).1) (s : State) (env : Envelope)
    (kind : RequestKind) : s.Upholds (s.take env kind f) :=
  complete (fun t => note (perform (h t)) env _) s

end State.Upholds

/-- UN opens no gate that is BARRED (R177). -/
theorem performUnlock_upholds (code : List Byte) (s : State) : s.Upholds (performUnlock code s).1 := by
  unfold performUnlock
  split
  · exact .refl s
  · exact .refl s
  · next hg =>
    split
    · exact ⟨.refl _, id, id, fun h => by rw [hg] at h; cases h⟩
    · exact ⟨.refl _, id, id, fun _ => rfl⟩

/-- What the owner of any request does. -/
theorem performRequest_upholds (i : Instr) (s : State) : s.Upholds (performRequest i s).1 := by
  cases i with
  | unlock env code => exact performUnlock_upholds code s
  | clearCauses env => exact ⟨.refl _, fun _ => Nat.zero_le _, fun _ => Nat.zero_le _, id⟩
  | acknowledgeAlerts env pairs =>
    refine .ask s ?_
    unfold performAcknowledge
    split
    · exact .refuse _ _
    · exact Plant.Upholds.of_zones rfl
  | changeCode env code => exact .ask s (.stored (.of_zones (by rfl)) _ _ _)
  | cwKiln env fields => exact .ask s (performCwKiln_upholds _ _)
  | cwZone env zone fields => exact .ask s (performCwZone_upholds _ _ _)
  | cwGroup env together limit => exact .ask s (performCwGroup_upholds _ _ _)
  | cwScan env mode favoured spot => exact .ask s (performCwScan_upholds _ _ _ _)
  | cwWindow env window fields => exact .ask s (performCwWindow_upholds _ _ _)
  | cwDefault env settle samples => exact .ask s (performCwDefault_upholds _ _ _)
  | cwLine env line fields => exact .ask s (performCwLine_upholds _ _ _)
  | configurationRead env item index => exact .ask s (performConfigurationRead_upholds _ _ _)
  | probeWrite env entry fields => exact .ask s (performProbeWrite_upholds _ _ _)
  | probeRead env entry => exact .ask s (performProbeRead_upholds _ _)
  | excludeProbe env entry => exact .ask s (performExcludeProbe_upholds _ _)
  | reinstateProbe env entry => exact .ask s (performReinstateProbe_upholds _ _)
  | spotRequest env entry => exact .ask s (performSpotRequest_upholds _ _)
  | spotResult env => exact .ask s (performSpotResult_upholds _)
  | speciesWrite env group k knots => exact .ask s (performSpeciesWrite_upholds _ _ _ _)
  | speciesRead env group => exact .ask s (performSpeciesRead_upholds _ _)
  | setCursor env index => exact .ask s (performSetCursor_upholds _ _)
  | writeRecord env record => exact .ask s (performWriteRecord_upholds _ _)
  | entryTableWrite env zone entries => exact .ask s (performEntryTableWrite_upholds _ _ _)
  | entryTableRead env zone => exact .ask s (performEntryTableRead_upholds _ _)
  | startZone env zone => exact .ask s (performStartZone_upholds _ _)
  | hold env target => exact .ask s (performHold_upholds _ _)
  | resume env zone => exact .ask s (performResume_upholds _ _)
  | skip env zone => exact .ask s (performSkip_upholds _ _)
  | abort env zone => exact .ask s (performAbort_upholds _ _)
  | reloadStep env zone => exact .ask s (performReloadStep_upholds _ _)
  | clearDone env zone => exact .ask s (performClearDone_upholds _ _)
  | recover env zone => exact .ask s (performRecover_upholds _ _)
  | delayedStartMinutes env minutes => exact .ask s (performDelayedStartMinutes_upholds _ _)
  | override env zone output value => exact .ask s (performOverride_upholds _ _ _ _)
  | releaseOverride env zone output => exact .ask s (performReleaseOverride_upholds _ _ _)
  | refreshOverrides env => exact .ask s (performRefreshOverrides_upholds _)
  | fieldEnable env => exact .ask s (performFieldEnable_upholds _)
  | fieldDisable env => exact .ask s (performFieldDisable_upholds _)
  | lineModify env mask values => exact .ask s (performLineModify_upholds _ _ _)
  | zoneRead env zone => exact .ask s (performZoneRead_upholds _ _)
  | runRecordRead env zone position => exact .ask s (performRunRecordRead_upholds _ _ _)
  | identify | rsReset | lineRead | delayedStartQuery => exact .ask s (.read _ _)
  | readRecord | delayedStartCancel => exact .ask s (Plant.Upholds.of_zones rfl)
  | status | frameComplete | badLengthByte | interByteTimeout | stopBitError | lineBreak | replyStart | replyEnd
  | powerOnReset | pinReset | commandedReset | restart | storeWriteComplete | passTimerExpiry | measurementCompletion
  | minuteTimerExpiry | startTimeoutExpiry | delayedStartExpiry | groupStartTimeoutExpiry | climateSampleComplete
  | rampMinuteExpiry | pulsePeriodStart | onTimeExpiry | dwellExpiry | proofDelayExpiry | overrideLapseExpiry
  | pinChange | debounceTimerExpiry | byteArrival | powerLoss => exact .refl s

/-- A command that is a request is the completion of a frame that carries it. -/
theorem exec_request {i : Instr} (h : i.envelope.isSome = true) (s : State) :
    ∃ env kind, exec i s = .next (s.take env kind (performRequest i)) := by
  cases i <;> first | exact ⟨_, _, rfl⟩ | cases h

end Sys2Proof.Machine
end

section
/-! SUPPORT. Proofs: the form and the bounds through every event, and the statement on them (O58). -/

namespace Sys2Proof.Machine

/-! ### The expiries of the timers -/

namespace Plant.Upholds

theorem countCheckpoint (p : Plant) (z : Zone) : p.Upholds (p.countCheckpoint z) :=
  have hq := Plant.Upholds.context p z (fun c => { c with checkpointCount := c.checkpointCount + 1 })
    ⟨rfl, rfl, rfl, rfl, id⟩
  .ite (hq.trans (queueCheckpoint _ z)) hq

theorem detach (p : Plant) (z : Zone) : p.Upholds (p.detach z) :=
  (((Plant.Upholds.context p z _ ⟨rfl, rfl, rfl, rfl, id⟩).trans (raise _ _)).trans (advance _ z)).trans (judgeRelease _)

/-- The wait count stops at 1441 (R104). -/
theorem waitMinute (p : Plant) (z : Zone) : p.Upholds (p.waitMinute z) :=
  have hq := Plant.Upholds.context p z (fun c => { c with waitCount := bump 1441 c.waitCount })
    ⟨rfl, rfl, rfl, rfl, fun _ => bump_le _ _⟩
  .ite (hq.trans (detach _ z)) hq

theorem sequencerMinute (p : Plant) (z : Zone) : p.Upholds (p.sequencerMinute z) := by
  have hclock := fun (f : ZoneContext → ZoneContext) (h : (p.ctx z).Alike (f (p.ctx z))) =>
    (Plant.Upholds.context p z f h).trans (countCheckpoint _ z)
  unfold Plant.sequencerMinute
  split
  · have hq := hclock (fun c => { c with stepClock := bump 65535 c.stepClock, runClock := bump 65535 c.runClock })
      ⟨rfl, rfl, rfl, rfl, id⟩
    exact .ite (hq.trans (waitMinute _ z)) (hq.trans (evaluate _ z))
  · exact hclock _ ⟨rfl, rfl, rfl, rfl, id⟩
  · exact hclock _ ⟨rfl, rfl, rfl, rfl, id⟩
  · exact .refl p

theorem minuteExpiry (p : Plant) (z : Zone) : p.Upholds (p.minuteExpiry z) :=
  ((Plant.Upholds.context p z _ ⟨rfl, rfl, rfl, rfl, id⟩).trans (sequencerMinute _ z)).trans (fanMinute _ z)

theorem groupTimeoutExpiry (p : Plant) : p.Upholds p.groupTimeoutExpiry :=
  (groupTimeout p none).trans (.foldl timeoutStart _ _)

theorem delayedExpiry (p : Plant) : p.Upholds p.delayedExpiry :=
  have hq : p.Upholds { p with delayedStart := none } := .of_zones rfl
  hq.trans (startEvent _ _ _)

theorem sampleComplete (p : Plant) (z : Zone) (db wb : Int) : p.Upholds (p.sampleComplete z db wb) :=
  ((climate p z _).trans (changeCauses _ z _)).trans (evaluateStart _ z)

theorem rampExpiry (p : Plant) (z : Zone) : p.Upholds (p.rampExpiry z) := reportRamp z (climate p z _)

theorem endDwell (p : Plant) (z : Zone) : p.Upholds (p.fan z FanState.endDwell) := by
  refine fan p z _ fun h => ?_
  unfold FanState.endDwell
  split
  · exact Nat.zero_le _
  · exact Nat.zero_le _
  · exact h

theorem endOnTime (p : Plant) (z : Zone) (t : TimedOutput) : p.Upholds (p.output z fun o => o.endOnTime t) := by
  cases t <;> exact output p z _ id

theorem proofExpiry (p : Plant) (z : Zone) : p.Upholds (p.proofExpiry z) :=
  (Plant.Upholds.zone p z _
    (.of_form ⟨rfl, rfl, rfl⟩ fun h => ⟨h.runRecord, h.dropped, h.waitCount, h.reversals⟩)).trans (changeCauses _ z _)

theorem lapseExpiry (p : Plant) : p.Upholds p.lapseExpiry :=
  have hq : p.Upholds { p with lapse := none } := .of_zones rfl
  (hq.trans (eachZone (fun q z => overrides q z _) _)).trans (raise _ _)

/-- A millisecond moves timers alone. -/
theorem tick (p : Plant) : p.Upholds p.tick := fun z => by
  rw [show p.tick.unit z = (p.unit z).tick from PerZone.get_tabulate _ z]
  exact .of_form ⟨rfl, rfl, rfl⟩ fun h => ⟨h.runRecord, h.dropped, h.waitCount, h.reversals⟩

theorem completeWrite (p : Plant) : p.Upholds p.completeWrite := by
  refine .of_zones ?_
  unfold Plant.completeWrite
  split <;> rfl

end Plant.Upholds

/-! ### The link -/

namespace State.Upholds

variable {s t : State}

theorem answerPayload (s : State) (env : Envelope) (kind : RequestKind) (payload : List Byte) :
    s.Upholds (s.answerPayload env kind payload).1 := by
  unfold State.answerPayload
  split
  · exact .refl s
  · exact perform (.refl s)
  · exact perform (performRequest_upholds _ s)

theorem answerFrame (s : State) (env : Envelope) (letters : Byte × Byte) (payload : List Byte) :
    s.Upholds (s.answerFrame env letters payload).1 := by
  unfold State.answerFrame
  split
  · exact .refl s
  · exact answerPayload s env _ payload

theorem takeFrame (s : State) (env : Envelope) (letters : Byte × Byte) (payload : List Byte) :
    s.Upholds (s.takeFrame env letters payload) :=
  complete (fun h => note (answerFrame h env letters payload) env letters) s

/-- The check-error counter stops at 65535 (R171). -/
theorem checkError (s : State) : s.Upholds s.checkError := ⟨.refl _, fun _ => bump_le _ _, id, id⟩

theorem judgeFrame (s : State) (bytes : List Byte) : s.Upholds (s.judgeFrame bytes) := by
  refine .ite (checkError s) ?_
  split
  · exact hunt s
  · exact takeFrame s _ _ _

theorem collect (s : State) (bytes : List Byte) : s.Upholds (s.collect bytes) :=
  .ite (checkError s) (.ite (judgeFrame s bytes) (of_link s _ rfl rfl rfl))

theorem takeByte (s : State) (b : Byte) : s.Upholds (s.takeByte b) := by
  refine .ite ?_ (.refl s)
  split
  · exact .ite (of_link s _ rfl rfl rfl) (.refl s)
  · exact collect s _

theorem discard (s : State) : s.Upholds s.discard := .ite (hunt s) (.refl s)

/-- A pin or commanded reset keeps the counters and the gate (R171, R177, R183). -/
theorem takeReset (s : State) {k : ResetKind} (h : k ≠ .powerOn) : s.Upholds (s.takeReset k) := by
  cases k with
  | powerOn => exact absurd rfl h
  | pin => exact ⟨.quiet _ _, id, id, id⟩
  | commanded => exact ⟨.quiet _ _, id, id, id⟩

theorem startReply (s : State) : s.Upholds s.startReply := by
  unfold State.startReply
  split
  · exact .ite (.refl s) (.ite (.ite (takeReset s nofun) (of_link s _ rfl rfl rfl)) (of_link s _ rfl rfl rfl))
  · exact .refl s

theorem endReply (s : State) : s.Upholds s.endReply := by
  refine .ite ?_ (.refl s)
  cases hu : s.link.unanswered with
  | none => refine of_link s _ ?_ ?_ ?_ <;> rw [hu]
  | some u => refine of_link s _ ?_ ?_ ?_ <;> rw [hu] <;> rfl

theorem completeWrite (s : State) : s.Upholds s.completeWrite := by
  have hlink : s.link.hostItemWritten = { s.link with unanswered := s.link.hostItemWritten.unanswered } := by
    unfold LinkState.hostItemWritten
    split
    · rfl
    · split
      · rfl
      · split <;> rfl
  unfold State.completeWrite
  split
  · rw [hlink]
    exact ⟨.completeWrite _, id, id, id⟩
  · exact of_plant s (.completeWrite _)
  · exact .refl s

theorem loseSupply (s : State) : s.Upholds s.loseSupply := by
  unfold State.loseSupply
  split
  · exact .refl s
  · exact ⟨.quiet _ _, id, id, id⟩

theorem endReset (s : State) (straps : Straps) : s.Upholds (s.endReset straps) := by
  unfold State.endReset
  split
  · exact ⟨.restart _ _ _, id, id, id⟩
  · exact .refl s

theorem idle (s : State) : s.Upholds s.idle := by
  unfold State.idle
  split
  · exact of_plant s (.tick _)
  · exact .refl s

/-- An expiry of a timer. -/
theorem expiry (s : State) {t : Plant → Timer} {f : Plant → Plant} (h : ∀ p : Plant, p.Upholds (f p)) :
    s.Upholds (s.event fun p => p.whileRunning (t p) (f p)) := event s (.ite (h _) (.refl _))

/-- What any command but a power-on reset leaves. -/
theorem exec {i : Instr} (h : i ≠ .powerOnReset) (s : State) : ∃ t, Machine.exec i s = .next t ∧ s.Upholds t := by
  by_cases hr : i.envelope.isSome = true
  · obtain ⟨env, kind, ht⟩ := exec_request hr s
    exact ⟨_, ht, take (performRequest_upholds i) s env kind⟩
  · cases i with
    | powerOnReset => exact absurd rfl h
    | frameComplete crcLow => exact ⟨_, rfl, .ite (takeByte s crcLow) (.refl s)⟩
    | badLengthByte length => exact ⟨_, rfl, .ite (.ite (checkError s) (.refl s)) (.refl s)⟩
    | interByteTimeout => exact ⟨_, rfl, discard s⟩
    | stopBitError => exact ⟨_, rfl, discard s⟩
    | lineBreak => exact ⟨_, rfl, discard s⟩
    | byteArrival byte => exact ⟨_, rfl, takeByte s byte⟩
    | replyStart => exact ⟨_, rfl, startReply s⟩
    | replyEnd => exact ⟨_, rfl, endReply s⟩
    | pinReset => exact ⟨_, rfl, .ite (takeReset s nofun) (.refl s)⟩
    | commandedReset => exact ⟨_, rfl, .ite (takeReset s nofun) (.refl s)⟩
    | restart sta bd mxs => exact ⟨_, rfl, endReset s _⟩
    | powerLoss => exact ⟨_, rfl, loseSupply s⟩
    | storeWriteComplete => exact ⟨_, rfl, completeWrite s⟩
    | passTimerExpiry zone => exact ⟨_, rfl, expiry s fun p => .passExpiry p zone⟩
    | measurementCompletion samples => exact ⟨_, rfl, event s (.completeMeasurement _ samples)⟩
    | minuteTimerExpiry zone => exact ⟨_, rfl, expiry s fun p => .minuteExpiry p zone⟩
    | startTimeoutExpiry zone => exact ⟨_, rfl, expiry s fun p => .ite (.timeoutStart p zone) (.refl p)⟩
    | delayedStartExpiry => exact ⟨_, rfl, expiry s .delayedExpiry⟩
    | groupStartTimeoutExpiry => exact ⟨_, rfl, expiry s .groupTimeoutExpiry⟩
    | climateSampleComplete zone db wb => exact ⟨_, rfl, expiry s fun p => .sampleComplete p zone db wb⟩
    | rampMinuteExpiry zone => exact ⟨_, rfl, expiry s fun p => .rampExpiry p zone⟩
    | pulsePeriodStart zone => exact ⟨_, rfl, expiry s fun p => .output p zone _ id⟩
    | onTimeExpiry zone output => exact ⟨_, rfl, expiry s fun p => .endOnTime p zone output⟩
    | dwellExpiry zone => exact ⟨_, rfl, expiry s fun p => .endDwell p zone⟩
    | proofDelayExpiry zone => exact ⟨_, rfl, expiry s fun p => .proofExpiry p zone⟩
    | overrideLapseExpiry => exact ⟨_, rfl, expiry s .lapseExpiry⟩
    | pinChange line high =>
      exact ⟨_, rfl, .ite (event s (.pinChange _ line high)) (of_plant s (.of_zones rfl))⟩
    | debounceTimerExpiry line => exact ⟨_, rfl, event s (.debounceExpiry _ line)⟩
    | _ => exact absurd rfl hr

end State.Upholds

/-! ### Every step -/

/-- What a step keeps that starts from a state in which it is kept: the form of the zones and the bounds of the counts. -/
theorem State.Upholds.laws {s t : State} (h : s.Upholds t) :
    ((∀ z, (s.plant.unit z).Consistent) → ∀ z, (t.plant.unit z).Consistent) ∧ (s.Bounded → t.Bounded) :=
  ⟨fun hc z => (h.plant z).form (hc z), fun hb =>
    ⟨fun z => (h.plant z).bounds (hb.zones z), h.checkErrors hb.checkErrors, h.overruns hb.overruns⟩⟩

/-- A power-on reset leaves fresh zones and counters at 0; the gate it leaves is LOCKED (R177). -/
theorem State.takeReset_powerOn_laws (s : State) :
    (∀ z, ((s.takeReset .powerOn).plant.unit z).Consistent) ∧ (s.takeReset .powerOn).Bounded := by
  have hz : ∀ z, (s.takeReset .powerOn).plant.unit z = {} := PerZone.get_all _
  exact ⟨fun z => hz z ▸ .fresh, ⟨fun z => hz z ▸ .fresh, Nat.zero_le _, Nat.zero_le _⟩⟩

/-- Settles O58: every operation on the plant upholds the form and the bounds of each zone, every event but a power-on reset
upholds the counters and a BARRED gate, and a power-on reset leaves fresh zones. -/
theorem zoneAndGateLaws : Obligations.ZoneAndGateLaws := by
  unfold Obligations.ZoneAndGateLaws
  intro s t h
  unfold step at h
  split at h
  · cases h
    have hu := State.Upholds.idle s
    obtain ⟨hc, hb⟩ := hu.laws
    exact ⟨hc, hb, fun hg _ => hu.gate hg⟩
  · next c rest hp =>
    by_cases hc : c = .powerOnReset
    · subst hc
      cases h
      obtain ⟨hz, hb⟩ := State.takeReset_powerOn_laws { s with pending := rest }
      exact ⟨fun _ => hz, fun _ => hb, fun _ hn => absurd hp (hn rest)⟩
    · obtain ⟨t', ht, hu⟩ := State.Upholds.exec hc { s with pending := rest }
      rw [ht] at h
      cases h
      obtain ⟨hf, hb⟩ := hu.laws
      exact ⟨hf, fun k => hb ⟨k.zones, k.checkErrors, k.overruns⟩, fun hg _ => hu.gate hg⟩

end Sys2Proof.Machine
end

section
/-! SUPPORT. Proofs: a ramp minute, and the statement on it (R91, R120). -/

namespace Sys2Proof.Machine

/-! ### Events of a part that runs -/

/-- An event of a part that runs leaves what the event makes of the plant, with the levels that follow. -/
theorem State.event_moved {s : State} (h : s.mode = .running) (f : Plant → Plant) : s.event f = s.moved (f s.plant) := by
  unfold State.event
  split
  · rfl
  · next hn => exact absurd h hn

/-- The expiry of a timer that runs. -/
theorem State.expiry_moved {s : State} {t : Plant → Timer} (h : s.mode = .running) (ht : (t s.plant).isSome = true)
    (f : Plant → Plant) : (s.event fun p => p.whileRunning (t p) (f p)) = s.moved (f s.plant) := by
  rw [State.event_moved h]
  exact congrArg s.moved (if_pos ht)

/-! ### Ramps -/

theorem ClimateState.offTarget_iff (c : ClimateState) : c.offTarget = true ↔ c.Away := by
  unfold ClimateState.offTarget ClimateState.Away
  cases c.dbSetpoint <;> cases c.wbSetpoint <;> simp

/-- With both setpoints formed a target is away where it differs from its own (R120). -/
theorem ClimateState.away_iff {c : ClimateState} {d w : Int} (hd : c.dbSetpoint = some d) (hw : c.wbSetpoint = some w) :
    c.Away ↔ c.dbTarget ≠ 60 * d ∨ c.wbTarget ≠ 60 * w := by
  simp [ClimateState.Away, hd, hw]

/-- A ramp minute toward formed setpoints moves both targets, and the timer runs on while one is away (R120). -/
theorem ClimateState.rampMinute_eq {c : ClimateState} {d w : Int} (hd : c.dbSetpoint = some d)
    (hw : c.wbSetpoint = some w) {m : ClimateState}
    (hm : m = { c with
      dbTarget := stepTarget c.dbTarget (60 * d) c.rampRate, wbTarget := stepTarget c.wbTarget (60 * w) c.rampRate }) :
    (m.Away → c.rampMinute = { m with rampTimer := some 60000 }) ∧
      (¬m.Away → c.rampMinute = { m with rampTimer := none }) := by
  have h : c.rampMinute = { m with rampTimer := if m.offTarget then some 60000 else none } := by
    obtain ⟨timer, db, wb, _, _, rate, dt, wt, ramp⟩ := c
    cases hd
    cases hw
    rw [hm]
    rfl
  constructor
  · intro ha
    rw [h, if_pos (m.offTarget_iff.2 ha)]
  · intro ha
    rw [h, if_neg fun k => ha (m.offTarget_iff.1 k)]

/-- What the end of a ramp minute makes of a zone: one whose ramp runs on, or that is not hold-pending, stays in its phase; a
hold-pending one whose ramp is complete enters HELD (R91, R120). -/
theorem Plant.rampExpiry_cases {p : Plant} {z : Zone} {ph : Phase} (hs : (p.ctx z).state = .phase ph)
    (ha : (p.unit z).climate.Away) (v : ZoneUnit) (hv : v = { p.unit z with climate := (p.unit z).climate.rampMinute }) :
    (v.climate.Away ∨ (p.ctx z).holdPending = false → p.rampExpiry z = p.put z v) ∧
      (¬v.climate.Away → (p.ctx z).holdPending = true →
        p.rampExpiry z = (p.put z (v.heldOver ph)).enqueue (.checkpoint z (v.heldOver ph).checkpoint)) := by
  subst hv
  have hin : (p.unit z).ctx.state.inPhase = true := congrArg ZoneState.inPhase hs
  have hq : p.climate z ClimateState.rampMinute =
      p.put z { p.unit z with climate := (p.unit z).climate.rampMinute } := Plant.zone_eq_put p z _
  have hr : ((p.climate z ClimateState.rampMinute).unit z).ramping = true ↔ (p.unit z).climate.rampMinute.Away := by
    rw [ZoneUnit.ramping_iff, hq, Plant.put_unit_self]
    exact and_iff_right hin
  refine ⟨fun h => ?stays, fun hn hp => ?completes⟩
  case stays =>
    rw [← hq]
    rcases h with h | h
    · exact Plant.reportRamp_stays (.inr (hr.2 h))
    · exact Plant.reportRamp_unheld (by rw [hq, Plant.put_ctx_self]; exact h)
  case completes =>
    have he : p.rampExpiry z = (p.climate z ClimateState.rampMinute).enterHeld z := by
      refine Plant.reportRamp_held ((ZoneUnit.ramping_iff _).2 ⟨hin, ha⟩) (fun k => hn (hr.1 k)) ?_ ?_
      · rw [hq, Plant.put_ctx_self]; exact hin
      · rw [hq, Plant.put_ctx_self]; exact hp
    rw [he, hq, Plant.enterHeld_eq _ z ph (by rw [Plant.put_ctx_self]; exact hs), Plant.put_unit_self, Plant.put_put]

/-- Settles O37: the ramp minute moves the targets, and where none is away the ramp is complete. -/
theorem rampMinuteRule : Obligations.RampMinuteRule := by
  unfold Obligations.RampMinuteRule
  intro s z ph d w p u c toward moved away hr ht hs hd hw ha
  have hx : exec (.rampMinuteExpiry z) s = .next (s.moved (p.rampExpiry z)) :=
    congrArg Host.Outcome.next
      (State.expiry_moved (t := fun p => (p.unit z).climate.rampTimer) hr ht fun p => p.rampExpiry z)
  have haway : moved.Away ↔ away := ClimateState.away_iff (c := moved) hd hw
  obtain ⟨hruns, hends⟩ := ClimateState.rampMinute_eq hd hw (m := moved) rfl
  obtain ⟨hstays, hheld⟩ := Plant.rampExpiry_cases hs ha { u with climate := c.rampMinute } rfl
  refine ⟨fun h => ?runs, fun h hp => ?ends, fun h hp => ?held⟩
  case runs =>
    rw [hruns (haway.2 h)] at hstays
    rw [hx, hstays (.inl (haway.2 h))]
  case ends =>
    rw [hends fun k => h (haway.1 k)] at hstays
    rw [hx, hstays (.inr hp)]
  case held =>
    rw [hends fun k => h (haway.1 k)] at hheld
    rw [hx, hheld (fun k => h (haway.1 k)) hp]
    rfl

end Sys2Proof.Machine
end

section
/-! SUPPORT. Proofs: a climate sample, the causes it leaves and the evaluation of a start on it (R81, R114, R115, R135, R136, R139,
R140), and the statement on it. -/

namespace Sys2Proof.Machine

/-! ### The sample and its causes -/

/-- One sensor record after a sample (R115): a reading out of range is a fault, and the third good one in a row ends it. -/
theorem SensorRecord.sample_eq (r : SensorRecord) (x : Int) :
    r.sample x =
      if x < -200 ∨ 1300 < x then { r with status := .faulty, goodStreak := 0 }
      else if r.status ≠ .faulty then { r with status := .good, value := some x }
      else if r.goodStreak = 2 then { status := .good, value := some x, goodStreak := 0 }
      else { r with value := some x, goodStreak := r.goodStreak + 1 } := by
  unfold SensorRecord.sample
  by_cases hx : x < -200 ∨ 1300 < x
  · rw [if_pos hx, if_neg (by omega)]
  · rw [if_neg hx, if_pos (by omega)]
    cases hs : r.status with
    | faulty => simp
    | good => simp
    | unsampled => simp

/-- SENSOR after a sample (R135). -/
theorem ZoneUnit.sampledCauses_sensor (u : ZoneUnit) (kiln : KilnConfig) (c : SafeCauses) :
    (u.sampledCauses kiln c).sensor = true ↔
      (u.climate.db.status = .faulty ∨ u.climate.wb.status = .faulty) ∨
        (c.sensor = true ∧ ¬(u.climate.db.status = .good ∧ u.climate.wb.status = .good)) := by
  have hf : u.sensorFault = true ↔ u.climate.db.status = .faulty ∨ u.climate.wb.status = .faulty := by
    simp [ZoneUnit.sensorFault]
  unfold ZoneUnit.sampledCauses
  split
  · next h => simp [hf.1 h]
  · next h =>
    rw [hf] at h
    simp [h]
    tauto

/-- OVERTEMP after a sample (R136). -/
theorem ZoneUnit.sampledCauses_overtemp (u : ZoneUnit) (kiln : KilnConfig) (c : SafeCauses) :
    (u.sampledCauses kiln c).overtemp = true ↔
      c.overtemp = true ∨
        ∃ x, u.climate.db.status = .good ∧ u.climate.db.value = some x ∧ kiln.maximumDb + kiln.overtempMargin < x := by
  simp [ZoneUnit.sampledCauses, ZoneUnit.overtemp, ZoneUnit.dbSatisfies_iff]

theorem SafeCauses.ext_iff_true {c d : SafeCauses} (hd : c.door = d.door) (hf : c.fan = d.fan)
    (hs : c.sensor = true ↔ d.sensor = true) (ho : c.overtemp = true ↔ d.overtemp = true) : c = d := by
  obtain ⟨_, _, _, _⟩ := c
  obtain ⟨_, _, _, _⟩ := d
  simp only [SafeCauses.mk.injEq]
  exact ⟨hd, Bool.eq_iff_iff.2 hs, hf, Bool.eq_iff_iff.2 ho⟩

/-! ### What follows a change of causes -/

theorem ZoneState.rests_of_mem {st : ZoneState} (h : st ∈ [.idle, .done, .resumePending]) :
    st.watched = false ∧ st ≠ .starting := by
  simp only [List.mem_cons, List.not_mem_nil, or_false] at h
  rcases h with rfl | rfl | rfl <;> exact ⟨rfl, nofun⟩

/-- A change of causes brings no zone into STARTING. -/
theorem Plant.Caused.not_starting {p q : Plant} {z : Zone} {causes : SafeCauses} (h : p.Caused q z causes)
    (hs : (p.ctx z).state ≠ .starting) : (q.ctx z).state ≠ .starting := by
  have running : (p.ctx z).state = .held ∨ (p.ctx z).state.inPhase = true → (q.ctx z).state ≠ .starting := fun hr => by
    cases hc : causes.any with
    | true => rw [(h.enters hr hc).state]; nofun
    | false => rw [h.stays hr hc, Plant.put_ctx_self]; exact hs
  cases hst : (p.ctx z).state with
  | starting => exact absurd hst hs
  | held => exact running (.inl hst)
  | phase ph => exact running (.inr (congrArg ZoneState.inPhase hst))
  | safe =>
    cases hc : causes.any with
    | true => rw [h.remains hst hc, Plant.put_ctx_self]; exact hs
    | false => rw [h.leaves hst hc, Plant.enqueue_ctx, Plant.put_ctx_self]; nofun
  | idle => rw [h.rests (congrArg ZoneState.watched hst)]; exact hs
  | done => rw [h.rests (congrArg ZoneState.watched hst)]; exact hs
  | resumePending => rw [h.rests (congrArg ZoneState.watched hst)]; exact hs

/-- Outside STARTING a zone is evaluated for no start (R81). -/
theorem Plant.evaluateStart_other {p : Plant} {z : Zone} (h : (p.ctx z).state ≠ .starting) : p.evaluateStart z = p :=
  if_neg h

/-- A change of causes that is followed by the evaluation of the zone's start: outside STARTING the change alone counts. -/
theorem Plant.Caused.evaluateStart {p q : Plant} {z : Zone} {causes : SafeCauses} (h : p.Caused q z causes)
    (hs : (p.ctx z).state ≠ .starting) : p.Caused (q.evaluateStart z) z causes := by
  rw [Plant.evaluateStart_other (h.not_starting hs)]
  exact h

/-- SAFE entered by a zone whose unit has been replaced in the same event. -/
theorem Plant.Secured.put_eq {p q : Plant} {z : Zone} {v : ZoneUnit} {causes : SafeCauses}
    (h : (p.put z v).Secured q z causes) :
    q = ((p.alarmed.raise (.zone z .safeEntered)).put z (v.secured causes p.kiln.safeFan)).enqueue
        (.checkpoint z (v.secured causes p.kiln.safeFan).checkpoint) := by
  have hs : q =
      (((p.alarmed.raise (.zone z .safeEntered)).put z v).put z
          (((p.put z v).unit z).secured causes p.kiln.safeFan)).enqueue
        (.checkpoint z (((p.put z v).unit z).secured causes p.kiln.safeFan).checkpoint) := h
  rw [hs, Plant.put_unit_self, Plant.put_put]

/-- Settles O36: the sample changes the zone's unit, the causes decide over SAFE, and a zone in STARTING is evaluated. -/
theorem climateSampleRule : Obligations.ClimateSampleRule := by
  unfold Obligations.ClimateSampleRule
  intro s z db wb p u sampled v faulty good hot causes hdoor hfan hsensor hovertemp hr ht
  have hx : exec (.climateSampleComplete z db wb) s = .next (s.moved (p.sampleComplete z db wb)) :=
    congrArg Host.Outcome.next
      (State.expiry_moved (t := fun p => (p.unit z).climate.sampleTimer) hr ht fun p => p.sampleComplete z db wb)
  have hq : (p.climate z fun c => { c with sampleTimer := some 10000, db := c.db.sample db, wb := c.wb.sample wb }) =
      p.put z v := by
    rw [Plant.climate, Plant.zone_eq_put, SensorRecord.sample_eq, SensorRecord.sample_eq]
  have hcauses : v.sampledCauses p.kiln u.causes = causes :=
    SafeCauses.ext_iff_true hdoor.symm hfan.symm ((v.sampledCauses_sensor p.kiln u.causes).trans hsensor.symm)
      ((v.sampledCauses_overtemp p.kiln u.causes).trans hovertemp.symm)
  have hstate : ((p.put z v).ctx z).state = u.ctx.state := by rw [Plant.put_ctx_self]
  obtain ⟨q, hcaused, hleft⟩ : ∃ q, (p.put z v).Caused q z causes ∧ p.sampleComplete z db wb = q.evaluateStart z := by
    have h := (p.put z v).changeCauses_caused z (v.sampledCauses p.kiln)
    rw [Plant.put_unit_self, show v.causes = u.causes from rfl, hcauses] at h
    refine ⟨_, h, ?_⟩
    unfold Plant.sampleComplete
    rw [hq]
    dsimp only
    rw [Plant.put_unit_self]
  rw [hx, hleft]
  have judged : u.ctx.state ≠ .starting → (p.put z v).Caused (q.evaluateStart z) z causes := fun hs =>
    hcaused.evaluateStart (hstate.symm ▸ hs)
  refine ⟨fun hs => ?rest, fun hs => ?starting, fun hs => ?running, fun hs => ?safe⟩
  case rest =>
    obtain ⟨hw, hn⟩ := ZoneState.rests_of_mem hs
    rw [(judged hn).rests (hstate ▸ hw)]
  case starting =>
    rw [hcaused.rests (by rw [hstate, hs]; rfl)]
    exact ⟨_, rfl, Plant.evaluateStart_judged _ z (hstate.trans hs)⟩
  case running =>
    have hn : u.ctx.state ≠ .starting := by rintro h; simp [h, ZoneState.inPhase] at hs
    rw [← hstate] at hs
    refine ⟨fun hc => ?_, fun hc => ?_⟩
    · rw [(judged hn).stays hs hc, Plant.put_unit_self, Plant.put_put]
    · exact congrArg (fun x => Host.Outcome.next (s.moved x)) ((judged hn).enters hs hc).put_eq
  case safe =>
    have hn : u.ctx.state ≠ .starting := by rw [hs]; nofun
    rw [← hstate] at hs
    refine ⟨fun hc => ?_, fun hc => ?_⟩
    · rw [(judged hn).remains hs hc, Plant.put_unit_self, Plant.put_put]
    · rw [(judged hn).leaves hs hc, Plant.put_unit_self, Plant.put_put]
      rfl

end Sys2Proof.Machine
end

section
/-! SUPPORT. Proofs: what an event leaves that gives each zone of a list its turn, the start timeouts, and the statement on them
(R80, R84, R108). -/

namespace Sys2Proof.Machine

/-! ### Turns -/

/-- What a zone's turn in an event makes of it: the alert it may raise, its unit, and whether its checkpoint is queued. -/
structure Turn where
  alert : Option Alert
  unit : ZoneUnit
  stops : Bool

/-- The alert of a turn, if it raises one. -/
def Plant.alert (p : Plant) : Option Alert → Plant
  | some a => p.raise a
  | none => p

/-- The plant after a zone's turn. -/
def Plant.turn (p : Plant) (z : Zone) (t : Turn) : Plant :=
  if t.stops = true then ((p.alert t.alert).put z t.unit).enqueue (.checkpoint z t.unit.checkpoint)
  else (p.alert t.alert).put z t.unit

/-- Two plants that agree in everything but the alerts, the zones and the store write queue. -/
def Plant.Rest (p q : Plant) : Prop := ∃ alerts zones queue, q = { p with alerts := alerts, zones := zones, queue := queue }

theorem Plant.Rest.refl (p : Plant) : p.Rest p := ⟨_, _, _, rfl⟩

theorem Plant.Rest.trans {p q r : Plant} (h : p.Rest q) (k : q.Rest r) : p.Rest r := by
  obtain ⟨_, _, _, rfl⟩ := h
  obtain ⟨_, _, _, rfl⟩ := k
  exact ⟨_, _, _, rfl⟩

theorem Plant.Rest.same {p q : Plant} (h : p.Rest q) :
    p.SameBeyondZones q ∧ q.lines = p.lines ∧ q.groupTimeout = p.groupTimeout := by
  obtain ⟨_, _, _, rfl⟩ := h
  exact ⟨⟨rfl, rfl, rfl, rfl, rfl, rfl, rfl, rfl, rfl, rfl, rfl, rfl⟩, rfl, rfl⟩

theorem Plant.enqueue_rest (p : Plant) (x : StoreItem) : p.Rest (p.enqueue x) := ⟨_, _, _, Plant.enqueue_eq p x⟩

theorem Plant.alert_rest (p : Plant) (a : Option Alert) : p.Rest (p.alert a) := by
  cases a <;> exact ⟨_, _, _, rfl⟩

theorem Plant.put_rest (p : Plant) (z : Zone) (u : ZoneUnit) : p.Rest (p.put z u) := ⟨_, _, _, rfl⟩

theorem Plant.turn_rest (p : Plant) (z : Zone) (t : Turn) : p.Rest (p.turn z t) := by
  have h := (p.alert_rest t.alert).trans (Plant.put_rest _ z t.unit)
  unfold Plant.turn
  split
  · exact h.trans (Plant.enqueue_rest _ _)
  · exact h

theorem Plant.alert_unit (p : Plant) (a : Option Alert) (y : Zone) : (p.alert a).unit y = p.unit y := by cases a <;> rfl

theorem Plant.turn_unit (p : Plant) (z : Zone) (t : Turn) : (p.turn z t).unit z = t.unit := by
  unfold Plant.turn
  split
  · rw [Plant.enqueue_unit, Plant.put_unit_self]
  · rw [Plant.put_unit_self]

theorem Plant.turn_others (p : Plant) {z y : Zone} (t : Turn) (h : y ≠ z) : (p.turn z t).unit y = p.unit y := by
  unfold Plant.turn
  split
  · rw [Plant.enqueue_unit, Plant.put_unit_ne _ _ h.symm, Plant.alert_unit]
  · rw [Plant.put_unit_ne _ _ h.symm, Plant.alert_unit]

theorem Plant.turn_alerts (p : Plant) (z : Zone) (t : Turn) : (p.turn z t).alerts = (p.alert t.alert).alerts := by
  unfold Plant.turn
  split
  · rw [Plant.enqueue_alerts, Plant.put_alerts]
  · rfl

theorem Plant.mem_turn_alerts (p : Plant) (z : Zone) (t : Turn) (a : Alert) :
    a ∈ (p.turn z t).alerts ↔ a ∈ p.alerts ∨ t.alert = some a := by
  rw [Plant.turn_alerts]
  cases t.alert with
  | none => simp [Plant.alert]
  | some b => simp [Plant.alert, mem_insertAlert, or_comm, eq_comm]

/-- The checkpoint of a zone queued where its turn stops it. -/
def Plant.turnQueue (p : Plant) (z : Zone) (t : Turn) : Plant :=
  if t.stops = true then p.enqueue (.checkpoint z t.unit.checkpoint) else p

/-- What is queued does not depend on the rest of the plant. -/
theorem Plant.enqueue_queue_congr {p q : Plant} (hw : q.work = p.work) (hq : q.queue = p.queue) (x : StoreItem) :
    (q.enqueue x).queue = (p.enqueue x).queue := by
  unfold Plant.enqueue
  rw [hq, hw]
  split <;> rfl

theorem Plant.turnQueue_congr {p q : Plant} (hw : q.work = p.work) (hq : q.queue = p.queue) (z : Zone) (t : Turn) :
    (q.turnQueue z t).queue = (p.turnQueue z t).queue ∧ (q.turnQueue z t).work = (p.turnQueue z t).work := by
  unfold Plant.turnQueue
  split
  · exact ⟨Plant.enqueue_queue_congr hw hq _, by rw [Plant.enqueue_work, Plant.enqueue_work, hw]⟩
  · exact ⟨hq, hw⟩

theorem Plant.foldl_turnQueue_congr (zs : List Zone) (t : Zone → Turn) {p q : Plant} (hw : q.work = p.work)
    (hq : q.queue = p.queue) :
    (zs.foldl (fun x z => x.turnQueue z (t z)) q).queue = (zs.foldl (fun x z => x.turnQueue z (t z)) p).queue := by
  induction zs generalizing p q with
  | nil => exact hq
  | cons z zs ih =>
    obtain ⟨hq', hw'⟩ := Plant.turnQueue_congr hw hq z (t z)
    exact ih hw' hq'

theorem Plant.turn_queue (p : Plant) (z : Zone) (t : Turn) :
    (p.turn z t).queue = (p.turnQueue z t).queue ∧ (p.turn z t).work = (p.turnQueue z t).work := by
  have hw : ((p.alert t.alert).put z t.unit).work = p.work := by rw [Plant.put_work]; cases t.alert <;> rfl
  have hq : ((p.alert t.alert).put z t.unit).queue = p.queue := by rw [Plant.put_queue]; cases t.alert <;> rfl
  exact Plant.turnQueue_congr hw hq z t

/-- Each zone of a list has had its turn. -/
structure Plant.Turned (p q : Plant) (zs : List Zone) (t : Zone → Turn) : Prop where
  rest : p.Rest q
  out : ∀ y, y ∉ zs → q.unit y = p.unit y
  turned : ∀ y ∈ zs, q.unit y = (t y).unit
  alerts : ∀ a, a ∈ q.alerts ↔ a ∈ p.alerts ∨ ∃ y ∈ zs, (t y).alert = some a
  quiet : (∀ y ∈ zs, (t y).alert = none) → q.alerts = p.alerts
  queue : q.queue = (zs.foldl (fun x z => x.turnQueue z (t z)) p).queue

/-- An operation that is a turn of each zone, as the event has found it, gives each its turn. -/
theorem Plant.foldl_turned {f : Plant → Zone → Plant} {t : Zone → Turn} (zs : List Zone) (hn : zs.Nodup) (p : Plant)
    (hf : ∀ x z, z ∈ zs → p.Rest x → x.unit z = p.unit z → f x z = x.turn z (t z)) : p.Turned (zs.foldl f p) zs t := by
  induction zs generalizing p with
  | nil => exact ⟨.refl p, fun _ _ => rfl, nofun, fun a => by simp, fun _ => rfl, rfl⟩
  | cons z zs ih =>
    rw [List.nodup_cons] at hn
    have hz := hf p z List.mem_cons_self (.refl p) rfl
    rw [List.foldl_cons, hz]
    have ne : ∀ y ∈ zs, y ≠ z := fun y hy e => hn.1 (e ▸ hy)
    have h := ih hn.2 (p.turn z (t z)) fun x y hy hr hu =>
      hf x y (List.mem_cons_of_mem z hy) ((p.turn_rest z (t z)).trans hr) (hu.trans (p.turn_others (t z) (ne y hy)))
    refine ⟨(p.turn_rest z (t z)).trans h.rest, fun y hy => ?out, fun y hy => ?turned, fun a => ?alerts, fun ha => ?quiet, ?queue⟩
    case out =>
      rw [List.mem_cons, not_or] at hy
      exact (h.out y hy.2).trans (p.turn_others (t z) hy.1)
    case turned =>
      rcases List.mem_cons.1 hy with rfl | hy
      · rw [h.out y hn.1, Plant.turn_unit]
      · exact h.turned y hy
    case alerts =>
      rw [h.alerts, Plant.mem_turn_alerts]
      simp only [List.mem_cons, exists_eq_or_imp, or_assoc]
    case quiet =>
      rw [h.quiet fun y hy => ha y (List.mem_cons_of_mem z hy), Plant.turn_alerts, ha z List.mem_cons_self]
      rfl
    case queue =>
      obtain ⟨hq, hw⟩ := p.turn_queue z (t z)
      exact h.queue.trans (Plant.foldl_turnQueue_congr zs t hw hq)

/-- The checkpoints that the turns of an event queue, zone by zone in the order of the zones. -/
theorem Plant.Turned.queue_eq {p p₀ q : Plant} {c : Zone → Bool} {t : Zone → Turn}
    (h : p.Turned q (everyZone.filter c) t) {P : Zone → Prop} [DecidablePred P]
    (hP : ∀ z, P z ↔ c z = true ∧ (t z).stops = true) (hw : p.work = p₀.work) (hq : p.queue = p₀.queue) :
    q.queue =
      (everyZone.foldl (fun x z => if P z then x.enqueue (.checkpoint z (q.unit z).checkpoint) else x) p₀).queue := by
  rw [h.queue, Plant.foldl_turnQueue_congr _ _ hw hq, List.foldl_filter]
  refine congrArg (fun f => (everyZone.foldl f p₀).queue) (funext fun x => funext fun z => ?_)
  by_cases hc : c z = true
  · rw [if_pos hc, h.turned z (List.mem_filter.2 ⟨Zone.mem_order z, hc⟩)]
    exact ite_congr (propext ((and_iff_right hc).symm.trans (hP z).symm)) (fun _ => rfl) fun _ => rfl
  · rw [if_neg hc, if_neg fun k => hc ((hP z).1 k).1]

/-! ### A start that times out -/

/-- A zone whose start has failed at its timeout with what was not met (R80). -/
def ZoneUnit.timedOut (u : ZoneUnit) (x : Unmet) : ZoneUnit :=
  { u with
    ctx :=
      { u.ctx with
        lastFailure := some { source := u.ctx.startSource, cause := .timeout, finding := none, unmet := some x } } }

/-- What a zone lacks at a timeout: its own conditions, or else its group (R80, R108; log entry 28). -/
def Plant.lacking (p : Plant) (z : Zone) : Unmet :=
  let own := p.unmet z
  if own.any then own else { own with group := true }

/-- What a zone lacks, condition by condition (R81). -/
theorem Plant.lacking_iff (p : Plant) (z : Zone) :
    let items := p.work.config.zones.get z
    let climate := (p.unit z).climate
    let x := p.lacking z
    (x.door = true ↔ items.preconditions.door = true ∧ p.doorOpen = true) ∧
    (x.fan = true ↔ items.preconditions.fan = true ∧ p.proof z = false) ∧
    (x.probes = true ↔ items.preconditions.probes = true ∧ (p.unit z).aggregate.count < items.nmin) ∧
    (x.climate = true ↔
      ¬(climate.db.status = .good ∧ climate.wb.status = .good ∧
        ∃ v, climate.db.value = some v ∧ v ≤ p.kiln.maximumDb + p.kiln.overtempMargin)) ∧
    x.group = !(x.door || x.fan || x.probes || x.climate) := by
  intro items climate x
  have hx : x = { p.unmet z with group := !(p.unmet z).any } := by
    change (if _ then _ else _ : Unmet) = _
    cases h : (p.unmet z).any with
    | true => rfl
    | false => rfl
  have hc : (p.unmet z).climate = true ↔
      ¬(climate.db.status = .good ∧ climate.wb.status = .good ∧
        ∃ v, climate.db.value = some v ∧ v ≤ p.kiln.maximumDb + p.kiln.overtempMargin) := by
    simp only [Plant.unmet, Bool.not_eq_true', ← Bool.not_eq_true, Bool.and_eq_true, beq_iff_eq,
      ZoneUnit.dbSatisfies_iff, decide_eq_true_eq]
    exact not_congr ⟨fun ⟨⟨h, k⟩, _, e⟩ => ⟨h, k, e⟩, fun ⟨h, k, e⟩ => ⟨⟨h, k⟩, h, e⟩⟩
  rw [hx]
  refine ⟨?_, ?_, ?_, hc, ?_⟩
  · simp [Plant.unmet, Plant.items, items]
  · simp [Plant.unmet, Plant.items, items]
  · exact Bool.and_eq_true_iff.trans (and_congr_right fun _ => decide_eq_true_iff)
  · exact congrArg (!·) (Bool.or_false _)

/-- What a zone lacks is read from the configuration, the lines and the zone. -/
theorem Plant.Rest.lacking {p q : Plant} (h : p.Rest q) {z : Zone} (hu : q.unit z = p.unit z) : q.lacking z = p.lacking z := by
  obtain ⟨_, _, _, rfl⟩ := h
  unfold Plant.lacking Plant.unmet
  rw [hu]
  rfl

/-- The turn of a zone whose start times out. -/
def Plant.timeoutTurn (p : Plant) (z : Zone) : Turn where
  alert := some (.zone z .startFailed)
  unit := ((p.unit z).timedOut (p.lacking z)).idled
  stops := true

theorem Plant.timeoutStart_eq (p : Plant) (z : Zone) : p.timeoutStart z = p.turn z (p.timeoutTurn z) := by
  have h : p.timeoutStart z = (p.failStart z
      { source := (p.unit z).ctx.startSource, cause := .timeout, finding := none, unmet := some (p.lacking z) }).enterIdle z :=
    rfl
  rw [h, Plant.enterIdle_eq, Plant.failStart, Plant.context_eq_put, Plant.raise_unit, Plant.put_unit_self, Plant.put_raise,
    Plant.put_put]
  rfl

/-- Settles O35: each start that times out is a turn of its zone. -/
theorem startTimeoutRule : Obligations.StartTimeoutRule := by
  unfold Obligations.StartTimeoutRule
  intro s hr p own failed
  refine ⟨fun z hs ht => ⟨p.lacking z, p.lacking_iff z, ?alone⟩, fun ht => ?group⟩
  case alone =>
    have hx : exec (.startTimeoutExpiry z) s = .next (s.moved (p.startTimeoutExpiry z)) :=
      congrArg Host.Outcome.next
        (State.expiry_moved (t := fun p => (p.ctx z).startTimeout) hr ht fun p => p.startTimeoutExpiry z)
    rw [hx, show p.startTimeoutExpiry z = p.timeoutStart z from if_pos hs, Plant.timeoutStart_eq]
    rfl
  case group =>
    have hx : exec .groupStartTimeoutExpiry s = .next (s.moved p.groupTimeoutExpiry) :=
      congrArg Host.Outcome.next
        (State.expiry_moved (t := fun p => p.groupTimeout) hr ht fun p => p.groupTimeoutExpiry)
    have h : ({ p with groupTimeout := none } : Plant).Turned p.groupTimeoutExpiry p.startingSet p.timeoutTurn := by
      refine Plant.foldl_turned _ ((by decide : Zone.order.Nodup).filter _) _ fun x z _ hrest hu => ?_
      rw [Plant.timeoutStart_eq]
      have hl : x.lacking z = p.lacking z := hrest.lacking hu
      unfold Plant.timeoutTurn
      rw [hu, hl]
      rfl
    obtain ⟨hsame, hlines, hgroup⟩ := h.rest.same
    refine ⟨_, hx, ⟨hsame.straps, hsame.work, hsame.store, hsame.cursor, hsame.records, hsame.frontEnd, hsame.arbiter,
      hsame.spot, hsame.mux, hsame.delayedStart, hsame.lapse, hsame.fieldEnabled⟩, hlines, hgroup, fun z hg hs => ?_,
      fun z hz => ?_, ?_, fun a => ?_⟩
    · exact ⟨p.lacking z, p.lacking_iff z, h.turned z ((p.mem_startingSet z).2 ⟨hg, hs⟩)⟩
    · exact h.out z fun hm => hz ((p.mem_startingSet z).1 hm)
    · refine h.queue_eq (p₀ := p) (fun z => ?_) rfl rfl
      exact ((p.mem_startingSet z).symm.trans (List.mem_filter.trans (and_iff_right (Zone.mem_order z)))).trans
        (and_iff_left rfl).symm
    · rw [h.alerts]
      refine or_congr Iff.rfl (exists_congr fun z => ?_)
      rw [p.mem_startingSet z, and_comm]
      exact and_congr ⟨fun k => (Option.some.inj k).symm, fun k => congrArg some k.symm⟩ Iff.rfl

end Sys2Proof.Machine
end

section
/-! SUPPORT. Proofs: HD of a zone that reaches no other, HD ALL, and the statement on them (R90, R91, R109, R111). -/

namespace Sys2Proof.Machine

/-! ### One zone -/

/-- A zone with HOST in its hold-cause set (R90). -/
def ZoneUnit.hosted (u : ZoneUnit) : ZoneUnit :=
  { u with ctx := { u.ctx with holds := { host := true, line := u.ctx.holds.line } } }

/-- A zone that HOST has made hold-pending (R91). -/
def ZoneUnit.hostPending (u : ZoneUnit) : ZoneUnit :=
  { u.hosted with
    ctx := { u.hosted.ctx with holdPending := true, eligible := none, waiting := false, waitCount := 0 } }

/-- HOST takes the zone from its phase `ph` into HELD (R91). -/
structure ZoneUnit.HostStops (u : ZoneUnit) (ph : Phase) : Prop where
  state : u.ctx.state = .phase ph
  free : u.ctx.holds.any = false
  settled : ¬u.climate.Away

/-- What HOST makes of a zone that runs, and whether it stops it (R90, R91). -/
structure ZoneUnit.HostJoins (u v : ZoneUnit) (stops : Bool) : Prop where
  stops : stops = true ↔ ∃ ph, u.HostStops ph
  held : u.ctx.state = .held → v = u.hosted
  joins : ∀ ph, u.ctx.state = .phase ph → u.ctx.holds.any = true → v = u.hosted
  pends : ∀ ph, u.ctx.state = .phase ph → u.ctx.holds.any = false → u.climate.Away → v = u.hostPending
  enters : ∀ ph, u.HostStops ph → v = u.hosted.heldOver ph

theorem Plant.turn_runs (p : Plant) (z : Zone) (v : ZoneUnit) : p.turn z ⟨none, v, false⟩ = p.put z v := rfl

theorem Plant.turn_stops (p : Plant) (z : Zone) (v : ZoneUnit) :
    p.turn z ⟨none, v, true⟩ = (p.put z v).enqueue (.checkpoint z v.checkpoint) := rfl

/-- HOST joining is the zone's turn. -/
theorem Plant.hostHold_turn {p : Plant} {z : Zone} {v : ZoneUnit} {stops : Bool} (hs : (p.ctx z).state.runs = true)
    (h : (p.unit z).HostJoins v stops) : p.hostHold z = p.turn z ⟨none, v, stops⟩ := by
  have hg : p.HoldGained (p.hostHold z) z { host := true, line := (p.ctx z).holds.line } := p.joinHold_gained z _ rfl
  have runs : (¬∃ ph, (p.unit z).HostStops ph) → stops = false := fun hn =>
    Bool.eq_false_iff.2 fun k => hn (h.stops.1 k)
  rcases (ZoneState.runs_iff _).1 hs with hh | hp
  · rw [runs fun ⟨_, k⟩ => (nomatch k.state.symm.trans hh), Plant.turn_runs, h.held hh]
    exact hg.joins (.inl hh)
  · cases hst : (p.ctx z).state with
    | phase ph =>
      cases hc : (p.ctx z).holds.any with
      | true =>
        rw [runs fun ⟨_, k⟩ => Bool.false_ne_true (k.free.symm.trans hc), Plant.turn_runs, h.joins ph hst hc]
        exact hg.joins (.inr ⟨hp, hc⟩)
      | false =>
        by_cases ha : (p.unit z).climate.Away
        · rw [runs fun ⟨_, k⟩ => k.settled ha, Plant.turn_runs, h.pends ph hst hc ha]
          exact hg.pends hp hc ha
        · rw [h.stops.2 ⟨ph, hst, hc, ha⟩, Plant.turn_stops, h.enters ph ⟨hst, hc, ha⟩]
          exact hg.holds ph hst hc ha
    | _ => rw [hst] at hp; cases hp

/-! ### Every zone that runs -/

theorem Plant.foldl_enqueue_eq (c : Zone → Bool) (item : Zone → StoreItem) (zs : List Zone) (p : Plant) :
    (zs.foldl (fun x z => if c z = true then x.enqueue (item z) else x) p) =
      { p with queue := (zs.foldl (fun x z => if c z = true then x.enqueue (item z) else x) p).queue } := by
  induction zs generalizing p with
  | nil => rfl
  | cons z zs ih =>
    rw [List.foldl_cons]
    split
    · rw [ih (p.enqueue (item z))]
      rw [Plant.enqueue_eq p (item z)]
    · exact ih p

/-- Each zone that runs has had its turn, and the others are as they were: the zones stand as the turns leave them, and the
checkpoints are queued in the order of the zones. -/
theorem Plant.Turned.eq {p q : Plant} {runs : Zone → Bool} {unit : Zone → ZoneUnit} {stops : Zone → Bool}
    (h : p.Turned q (everyZone.filter runs) fun z => ⟨none, unit z, stops z⟩)
    (hu : ∀ z, runs z = false → unit z = p.unit z) (hs : ∀ z, stops z = true → runs z = true) :
    q =
      everyZone.foldl (fun q z => if stops z = true then q.enqueue (.checkpoint z (unit z).checkpoint) else q)
        { p with zones := PerZone.tabulate unit } := by
  have hunit : ∀ z, q.unit z = unit z := fun z => by
    cases hr : runs z with
    | true => exact h.turned z (List.mem_filter.2 ⟨Zone.mem_order z, hr⟩)
    | false =>
      rw [hu z hr]
      exact h.out z fun k => by rw [(List.mem_filter.1 k).2] at hr; cases hr
  have hzones : q.zones = PerZone.tabulate unit := PerZone.ext_get fun z => (hunit z).trans (PerZone.get_tabulate _ z).symm
  have hqueue := h.queue_eq (P := fun z => stops z = true) (p₀ := { p with zones := PerZone.tabulate unit })
    (fun z => ⟨fun k => ⟨hs z k, k⟩, fun k => k.2⟩) rfl rfl
  simp only [hunit] at hqueue
  have halerts : q.alerts = p.alerts := h.quiet fun _ _ => rfl
  obtain ⟨_, _, _, rfl⟩ := h.rest
  rw [Plant.foldl_enqueue_eq, ← hqueue, ← hzones]
  exact congrArg (fun a => ({ p with alerts := a, zones := _, queue := _ } : Plant)) halerts

/-! ### The request -/

theorem ZoneState.rests_of_not_runs {st : ZoneState} (h : st.runs = false) : st ≠ .held ∧ st.phase? = none := by
  cases st <;> simp_all [ZoneState.runs, ZoneState.phase?]

theorem performHold_undefined (p : Plant) {n : Nat} (h : 5 ≤ n) : performHold n p = .refuse .badValue := by
  unfold performHold
  rw [if_neg (by omega), zoneOf_eq_none (by omega)]

theorem performHold_all (p : Plant) :
    performHold 4 p = .ok ((everyZone.filter fun z => (p.ctx z).state.runs).foldl Plant.hostHold p).judgeRelease :=
  if_pos rfl

theorem performHold_zone (p : Plant) (z : Zone) :
    performHold z.code p =
      if (p.ctx z).state.runs = true then .ok ((z :: p.reached z).foldl Plant.hostHold p).judgeRelease
      else .refuse .wrongState := by
  unfold performHold
  rw [if_neg (by cases z <;> decide), zoneOf_code]

/-- Settles O21: HOST joins each zone in its turn. -/
theorem holdRule : Obligations.HoldRule := by
  unfold Obligations.HoldRule
  intro s env h p hosted pending leaves enters alone
  -- an HD that leaves `x`, the release judged
  have judged : ∀ target x, performHold target p = .ok x.judgeRelease → leaves target x := fun target x hf =>
    ⟨_, x.judgeRelease_released, congrArg _ (State.take_performed h env hf)⟩
  -- an HD of a zone that reaches no other
  have single : ∀ z x, (p.ctx z).state.runs = true → alone z → p.hostHold z = x → leaves z.code x := fun z x hr ha hx => by
    refine judged _ _ ?_
    rw [performHold_zone, if_pos hr, Plant.reached_alone ha, ← hx]
    rfl
  have gained : ∀ z, p.HoldGained (p.hostHold z) z { host := true, line := (p.ctx z).holds.line } := fun z =>
    p.joinHold_gained z _ rfl
  refine ⟨fun n hn => ?undefined, fun z => ⟨fun hh hp => ?refused, fun hs ha => ?held, fun ph hs ha => ?phase⟩,
    fun unit stops hz => ?all⟩
  case undefined => exact congrArg _ (State.take_refuse h env (performHold_undefined p hn))
  case refused =>
    refine congrArg _ (State.take_refuse h env ?_)
    rw [performHold_zone, if_neg (ZoneState.not_runs hh hp)]
  case held => exact single z _ ((ZoneState.runs_iff _).2 (.inl hs)) ha ((gained z).joins (.inl hs))
  case phase =>
    have hin : (p.ctx z).state.inPhase = true := congrArg ZoneState.inPhase hs
    have hr : (p.ctx z).state.runs = true := (ZoneState.runs_iff _).2 (.inr hin)
    exact ⟨fun hc => single z _ hr ha ((gained z).joins (.inr ⟨hin, hc⟩)),
      fun hc haway => single z _ hr ha ((gained z).pends hin hc haway),
      fun hc haway => single z _ hr ha ((gained z).holds ph hs hc haway)⟩
  case all =>
    have joins : ∀ z, (p.unit z).HostJoins (unit z) (stops z) := fun z => by
      obtain ⟨hstops, -, hheld, hphase⟩ := hz z
      refine ⟨hstops.trans (exists_congr fun ph => ⟨fun ⟨a, b, c⟩ => ⟨a, b, c⟩, fun k => ⟨k.state, k.free, k.settled⟩⟩),
        hheld, fun ph hs => (hphase ph hs).1, fun ph hs => (hphase ph hs).2.1, fun ph k => (hphase ph k.state).2.2 ?_⟩
      exact ⟨k.state, k.free, k.settled⟩
    have turned : p.Turned _ (everyZone.filter fun z => (p.ctx z).state.runs) fun z => ⟨none, unit z, stops z⟩ :=
      Plant.foldl_turned (f := Plant.hostHold) _ ((by decide : Zone.order.Nodup).filter _) p fun x z hm _ hu =>
        Plant.hostHold_turn (by rw [Plant.ctx_eq, hu]; exact (List.mem_filter.1 hm).2) (hu.symm ▸ joins z)
    have heq := turned.eq (fun z hr => ?_) fun z hs => ?_
    · rw [← heq]
      exact judged 4 _ (performHold_all p)
    · obtain ⟨hh, hp⟩ := ZoneState.rests_of_not_runs hr
      exact (hz z).2.1 hh hp
    · obtain ⟨ph, hph, -⟩ := (hz z).1.1 hs
      exact congrArg ZoneState.runs hph

end Sys2Proof.Machine
end

section
/-! SUPPORT. Proofs: SK, AB and CL, and the statements on them (R75, R87 to R89, R93, R94, R107, R110, R111). -/

namespace Sys2Proof.Machine

section Zones

variable {p : Plant} {z : Zone}

/-! ### SK -/

/-- In a phase state a member of the lockstep set is one whose phase is DRYING (R110). -/
theorem Plant.becomeEligible_waits_iff (hs : (p.ctx z).state.inPhase = true) :
    (p.grouped z && !(p.ctx z).detached && (p.ctx z).state == .phase .drying) = true ↔ p.InStep z := by
  rw [← Plant.inLockstep_iff]
  unfold Plant.inLockstep ZoneContext.currentPhase
  cases hst : (p.ctx z).state <;> simp_all [ZoneState.inPhase]

/-- A zone that is found eligible outside the lockstep set advances (R87, R88). -/
theorem Plant.becomeEligible_advances (hs : (p.ctx z).state.inPhase = true) (h : ¬p.InStep z) (reason : ExitReason) :
    p.Advances (p.becomeEligible z reason) z reason := by
  unfold Plant.becomeEligible
  rw [if_neg fun k => h ((Plant.becomeEligible_waits_iff hs).1 k)]
  exact p.advance_advances z reason

/-- In the lockstep set it waits with its reason (R110). -/
theorem Plant.becomeEligible_waits (hs : (p.ctx z).state.inPhase = true) (h : p.InStep z) (reason : ExitReason) :
    p.becomeEligible z reason =
      p.put z
        { p.unit z with
          ctx :=
            { p.ctx z with
              eligible := some reason
              waiting := true
              waitCount := if (p.ctx z).waiting then (p.ctx z).waitCount else 0 } } := by
  unfold Plant.becomeEligible
  rw [if_pos ((Plant.becomeEligible_waits_iff hs).2 h)]
  dsimp only
  rw [Plant.context_eq_put, Plant.context_eq_put, Plant.put_put, Plant.put_unit_self]
  cases hw : (p.ctx z).waiting with
  | false => rfl
  | true =>
    rw [if_pos rfl, if_pos rfl, ← hw]
    rfl

theorem performSkip_undefined (p : Plant) {n : Nat} (h : 4 ≤ n) : performSkip n p = .refuse .badValue := by
  rw [performSkip, zoneOf_eq_none h]

theorem performSkip_zone (p : Plant) (z : Zone) :
    performSkip z.code p =
      if ((p.ctx z).state.inPhase && !(p.ctx z).holdPending) = true then
        .ok (p.becomeEligible z .skipped).judgeRelease
      else .refuse .wrongState := by
  rw [performSkip, zoneOf_code]

theorem ZoneState.inPhase_of_phase?_none {st : ZoneState} (h : st.phase? = none) : st.inPhase = false := by
  cases st <;> simp_all [ZoneState.inPhase, ZoneState.phase?]

end Zones

/-- Settles O24: SK makes the zone eligible with reason SKIPPED, and the release is judged. -/
theorem skipRule : Obligations.SkipRule := by
  unfold Obligations.SkipRule
  intro s env z h p u
  have hf := performSkip_zone p z
  refine ⟨fun n hn => ?undefined, fun hs => ?refused, fun hs hp => ?skipped⟩
  case undefined => exact congrArg _ (State.take_refuse h env (performSkip_undefined p hn))
  case refused =>
    rw [if_neg] at hf
    · exact congrArg _ (State.take_refuse h env hf)
    · intro k
      obtain ⟨hin, hpend⟩ := Bool.and_eq_true_iff.1 k
      rcases hs with hs | hs
      · exact Bool.false_ne_true ((ZoneState.inPhase_of_phase?_none hs).symm.trans hin)
      · rw [Plant.ctx_eq, hs] at hpend; cases hpend
  case skipped =>
    have hc : ((p.ctx z).state.inPhase && !(p.ctx z).holdPending) = true :=
      Bool.and_eq_true_iff.2 ⟨hs, congrArg (!·) hp⟩
    rw [if_pos hc] at hf
    exact ⟨_, _, congrArg _ (State.take_performed h env hf), Plant.judgeRelease_released _,
      fun hi => Plant.becomeEligible_advances hs hi _, fun hi => Plant.becomeEligible_waits hs hi _⟩

/-! ### AB and CL -/

section Aborts

variable {p : Plant} {z : Zone}

/-- A run that has noted its abort (R94). -/
def ZoneUnit.noted (u : ZoneUnit) : ZoneUnit := { u with ctx := u.ctx.gain (u.event .aborted none) }

/-- A run without hold causes, which a hold or an eligibility no longer marks. -/
def ZoneUnit.unheld (u : ZoneUnit) : ZoneUnit :=
  { u with
    ctx := { u.ctx with holds := {}, holdPending := false, eligible := none, waiting := false, waitCount := 0 } }

/-- An aborted run leaves for IDLE from SAFE, and from a HELD that names no phase (R94). -/
theorem Plant.aborted_idle (p : Plant) (z : Zone) :
    (p.record z .aborted).enterIdle z =
      (p.put z (p.unit z).noted.idled).enqueue (.checkpoint z (p.unit z).noted.idled.checkpoint) := by
  rw [Plant.enterIdle_eq, Plant.record_eq, Plant.put_unit_self, Plant.put_put]
  rfl

/-- What an abort leaves of the zone before the run goes on to COOLDOWN or to IDLE. -/
theorem Plant.unheld_noted (p : Plant) (z : Zone) :
    (p.context z fun c =>
      { c with holds := {}, holdPending := false, eligible := none, waiting := false, waitCount := 0 }).record z .aborted =
        p.put z (p.unit z).unheld.noted := by
  rw [Plant.record_eq, Plant.context_eq_put, Plant.put_unit_self, Plant.put_ctx_self, Plant.put_put]
  rfl

/-- From COOLDOWN, and where COOLDOWN has no entry, an aborted run leaves for IDLE (R94; log entry 35). -/
theorem Plant.abortRun_idle {ph : Phase} (h : ph = .cooldown ∨ (p.work.entries.get z).cooldown = none) :
    p.abortRun z ph =
      (p.put z (p.unit z).noted.idled).enqueue (.checkpoint z (p.unit z).noted.idled.checkpoint) := by
  have hi : (p.put z (p.unit z).unheld.noted).enterIdle z =
      (p.put z (p.unit z).noted.idled).enqueue (.checkpoint z (p.unit z).noted.idled.checkpoint) := by
    rw [Plant.enterIdle_eq, Plant.put_unit_self, Plant.put_put]
    rfl
  unfold Plant.abortRun
  dsimp only
  rw [Plant.unheld_noted]
  rcases h with h | h
  · rw [if_pos h, hi]
  · rw [h]
    dsimp only
    rw [hi, ite_self]

/-- From any other phase it enters COOLDOWN (R94). -/
theorem Plant.abortRun_cooldown {ph : Phase} (h : ph ≠ .cooldown) (hs : (p.ctx z).state ≠ .phase .cooldown) {i : Fin 128}
    {x : StepRecord} (hi : (p.work.entries.get z).cooldown = some i) (hx : p.work.records.get i = some x) (v : ZoneUnit)
    (hv : v = (p.unit z).unheld.noted.stepped .cooldown i x p.kiln.maximumDb (p.work.config.zones.get z).dwell) :
    p.abortRun z ph =
      ((((p.raiseIf (decide (p.kiln.maximumDb < x.db)) (.zone z .targetClamped)).raise
          (.zone z .phaseChanged)).put z v).enqueue (.checkpoint z v.checkpoint)) := by
  have hn : ¬((p.put z (p.unit z).unheld.noted).ctx z).state = .phase .cooldown := by rw [Plant.put_ctx_self]; exact hs
  unfold Plant.abortRun
  dsimp only
  rw [Plant.unheld_noted, if_neg h, hi]
  dsimp only
  rw [Plant.enterStep_eq (p.put z (p.unit z).unheld.noted) z .cooldown i x hx, if_neg hn, Plant.put_unit_self, Plant.put_kiln, Plant.put_work,
    Plant.raiseIf_put, Plant.put_raise, Plant.put_put, hv]

theorem performAbort_undefined (p : Plant) {n : Nat} (h : 4 ≤ n) : performAbort n p = .refuse .badValue := by
  rw [performAbort, zoneOf_eq_none h]

theorem performAbort_refused (h : (p.ctx z).state = .idle ∨ (p.ctx z).state = .done) :
    performAbort z.code p = .refuse .wrongState := by
  rw [performAbort, zoneOf_code]
  rcases h with h | h <;> simp only [h]

theorem performAbort_starting (h : (p.ctx z).state = .starting) :
    performAbort z.code p = .ok (p.enterIdle z).judgeGroup := by
  rw [performAbort, zoneOf_code]
  simp only [h]

theorem performAbort_pending (h : (p.ctx z).state = .resumePending) : performAbort z.code p = .ok (p.enterIdle z) := by
  rw [performAbort, zoneOf_code]
  simp only [h]

theorem performAbort_safe (h : (p.ctx z).state = .safe) :
    performAbort z.code p = .ok ((p.record z .aborted).enterIdle z).judgeRelease := by
  rw [performAbort, zoneOf_code]
  simp only [h]

theorem performAbort_run {ph : Phase}
    (h : (p.ctx z).state = .phase ph ∨ ((p.ctx z).state = .held ∧ (p.ctx z).underlying = some ph)) :
    performAbort z.code p = .ok (p.abortRun z ph).judgeRelease := by
  rw [performAbort, zoneOf_code]
  rcases h with h | ⟨h, hu⟩
  · simp only [h]
  · simp only [ZoneContext.currentPhase, h, hu]

theorem performClearDone_undefined (p : Plant) {n : Nat} (h : 4 ≤ n) : performClearDone n p = .refuse .badValue := by
  rw [performClearDone, zoneOf_eq_none h]

theorem performClearDone_zone (p : Plant) (z : Zone) :
    performClearDone z.code p = if (p.ctx z).state = .done then .ok (p.enterIdle z) else .refuse .wrongState := by
  rw [performClearDone, zoneOf_code]

end Aborts

/-- Settles O25: an abort notes itself in the run record and leaves for COOLDOWN or IDLE. -/
theorem abortAndClearRule : Obligations.AbortAndClearRule := by
  unfold Obligations.AbortAndClearRule
  refine ⟨?abort, ?clear⟩
  case abort =>
    intro s env z h p u answers leaves gone noted standing
    have answered : ∀ q, performAbort z.code p = .ok q → answers q := fun q hf =>
      congrArg _ (State.take_performed h env hf)
    -- an abort that leaves `x`, the release judged
    have judged : ∀ x y, performAbort z.code p = .ok (Plant.judgeRelease y) → y = x → leaves x := fun x y hf he =>
      ⟨_, he ▸ y.judgeRelease_released, answered _ hf⟩
    have idled : p.enterIdle z = gone u := Plant.enterIdle_eq p z
    refine ⟨fun n hn => ?undefined, fun hs => ?refused, fun hs => ?starting, fun hs => ?pending, fun hs => ?gone,
      fun ph hs hph => ⟨fun hn => ?blank, fun i x hi hx => ?cooldown⟩⟩
    case undefined => exact congrArg _ (State.take_refuse h env (performAbort_undefined p hn))
    case refused => exact congrArg _ (State.take_refuse h env (performAbort_refused hs))
    case starting => exact ⟨_, idled ▸ Plant.judgeGroup_judged _, answered _ (performAbort_starting hs)⟩
    case pending => exact answered _ ((performAbort_pending hs).trans (congrArg (fun q => Performance.ok q) idled))
    case gone =>
      rcases hs with hs | hs
      · exact judged _ _ (performAbort_safe hs) (p.aborted_idle z)
      · exact judged _ _ (performAbort_run hs) (Plant.abortRun_idle (.inl rfl))
    case blank => exact judged _ _ (performAbort_run hs) (Plant.abortRun_idle (.inr hn))
    case cooldown =>
      refine judged _ _ (performAbort_run hs) (Plant.abortRun_cooldown hph ?_ hi hx _ rfl)
      rcases hs with hs | ⟨hs, -⟩
      · rw [Plant.ctx_eq, hs]
        exact fun k => hph (ZoneState.phase.inj k)
      · rw [Plant.ctx_eq, hs]
        nofun
  case clear =>
    intro s env z h u
    have hf := performClearDone_zone s.plant z
    refine ⟨fun n hn => congrArg _ (State.take_refuse h env (performClearDone_undefined s.plant hn)), fun hs => ?_,
      fun hs => ?_⟩
    · rw [if_neg (show ¬(s.plant.ctx z).state = .done from hs)] at hf
      exact congrArg _ (State.take_refuse h env hf)
    · rw [if_pos (show (s.plant.ctx z).state = .done from hs), Plant.enterIdle_eq] at hf
      exact congrArg _ (State.take_performed h env hf)

end Sys2Proof.Machine
end

section
/-! SUPPORT. Proofs: a minute of a zone, its clocks, its checkpoint, its eligibility and its fan, and the statements on them (R76,
R86, R87, R100, R125). -/

namespace Sys2Proof.Machine

section Minutes

variable {p : Plant} {z : Zone}

/-! ### The clocks and the checkpoint (R76, R100) -/

/-- A zone after a minute of its run, with its step clock at `stepClock` and its outputs at `output`. -/
def ZoneUnit.minuted (u : ZoneUnit) (stepClock : Nat) (output : OutputState) : ZoneUnit :=
  { u with
    ctx :=
      { u.ctx with
        minuteTimer := some 60000
        stepClock := stepClock
        runClock := min 65535 (u.ctx.runClock + 1)
        checkpointCount := if u.ctx.checkpointCount + 1 < 30 then u.ctx.checkpointCount + 1 else 0 }
    output := output }

/-- The plant after a minute of the run of zone `z`, with the periodic checkpoint (R100). -/
def Plant.minuted (p : Plant) (z : Zone) (stepClock : Nat) (output : OutputState) : Plant :=
  let v := (p.unit z).minuted stepClock output
  if (p.ctx z).checkpointCount + 1 < 30 then p.put z v else (p.put z v).enqueue (.checkpoint z v.checkpoint)

@[simp] theorem Plant.minuted_unit (p : Plant) (z : Zone) (n : Nat) (o : OutputState) :
    (p.minuted z n o).unit z = (p.unit z).minuted n o := by
  unfold Plant.minuted
  dsimp only
  split
  · exact Plant.put_unit_self _ _ _
  · rw [Plant.enqueue_unit, Plant.put_unit_self]

theorem Plant.minuted_others {y : Zone} (h : y ≠ z) (n : Nat) (o : OutputState) : (p.minuted z n o).unit y = p.unit y := by
  unfold Plant.minuted
  dsimp only
  split
  · exact Plant.put_unit_ne _ _ h.symm
  · rw [Plant.enqueue_unit, Plant.put_unit_ne _ _ h.symm]

@[simp] theorem Plant.minuted_work (p : Plant) (z : Zone) (n : Nat) (o : OutputState) : (p.minuted z n o).work = p.work := by
  unfold Plant.minuted
  dsimp only
  split
  · rfl
  · exact Plant.enqueue_work _ _

/-- What the checkpoint holds of the outputs is the direction of the fan alone (R160). -/
theorem Plant.minuted_put (n : Nat) {o o' : OutputState} (h : o'.fan.direction = o.fan.direction) :
    (p.minuted z n o).put z ((p.unit z).minuted n o') = p.minuted z n o' := by
  have hc : ((p.unit z).minuted n o').checkpoint = ((p.unit z).minuted n o).checkpoint := by
    unfold ZoneUnit.checkpoint ZoneUnit.minuted
    rw [h]
  unfold Plant.minuted
  dsimp only
  rw [hc]
  split
  · exact Plant.put_put _ _ _ _
  · rw [Plant.enqueue_put, Plant.put_put]

theorem Plant.countCheckpoint_put (p : Plant) (z : Zone) (w : ZoneUnit) :
    (p.put z w).countCheckpoint z =
      if w.ctx.checkpointCount + 1 < 30 then
        p.put z { w with ctx := { w.ctx with checkpointCount := w.ctx.checkpointCount + 1 } }
      else (p.put z { w with ctx := { w.ctx with checkpointCount := 0 } }).enqueue (.checkpoint z w.checkpoint) := by
  unfold Plant.countCheckpoint
  dsimp only
  rw [Plant.context_eq_put, Plant.put_unit_self, Plant.put_put, Plant.put_ctx_self, Plant.queueCheckpoint_eq,
    Plant.put_unit_self, Plant.put_ctx_self, Plant.put_put]
  by_cases h : w.ctx.checkpointCount + 1 < 30
  · exact (if_neg (show ¬30 ≤ w.ctx.checkpointCount + 1 by omega)).trans (if_pos h).symm
  · exact (if_pos (show 30 ≤ w.ctx.checkpointCount + 1 by omega)).trans (if_neg h).symm

/-- The clocks of a zone and its checkpoint count moved. -/
theorem Plant.countCheckpoint_minuted (p : Plant) (z : Zone) (n : Nat) {w : ZoneUnit}
    (hw : w =
      { p.unit z with
        ctx :=
          { p.ctx z with
            minuteTimer := some 60000
            stepClock := n
            runClock := min 65535 ((p.ctx z).runClock + 1) } }) :
    (p.put z w).countCheckpoint z = p.minuted z n (p.unit z).output := by
  have hc : w.ctx.checkpointCount = (p.ctx z).checkpointCount := by rw [hw]
  rw [Plant.countCheckpoint_put]
  unfold Plant.minuted ZoneUnit.minuted
  rw [hc, hw]
  rw [← Plant.ctx_eq]
  by_cases h : (p.ctx z).checkpointCount + 1 < 30
  · simp only [if_pos h]
  · simp only [if_neg h]
    rfl

/-! ### The sequencer's part (R76) -/

/-- The zone with its minute timer started again. -/
def ZoneUnit.timed (u : ZoneUnit) : ZoneUnit := { u with ctx := { u.ctx with minuteTimer := some 60000 } }

/-- Outside a run only the minute timer starts again. -/
theorem Plant.sequencerMinute_rests (h : (p.ctx z).state.watched = false) :
    (p.put z (p.unit z).timed).sequencerMinute z = p.put z (p.unit z).timed := by
  have hs : ((p.put z (p.unit z).timed).ctx z).state = (p.ctx z).state := by rw [Plant.put_ctx_self]; rfl
  unfold Plant.sequencerMinute
  rw [hs]
  cases hst : (p.ctx z).state <;> simp_all [ZoneState.watched]

/-- In HELD and SAFE the run clock advances. -/
theorem Plant.sequencerMinute_stands (h : (p.ctx z).state = .held ∨ (p.ctx z).state = .safe) :
    (p.put z (p.unit z).timed).sequencerMinute z = p.minuted z (p.ctx z).stepClock (p.unit z).output := by
  have hs : ((p.put z (p.unit z).timed).ctx z).state = (p.ctx z).state := by rw [Plant.put_ctx_self]; rfl
  have hm : ((p.put z (p.unit z).timed).context z fun c => { c with runClock := bump 65535 c.runClock }).countCheckpoint z =
      p.minuted z (p.ctx z).stepClock (p.unit z).output := by
    rw [Plant.context_eq_put, Plant.put_unit_self, Plant.put_put]
    exact Plant.countCheckpoint_minuted p z _ rfl
  unfold Plant.sequencerMinute
  rw [hs]
  rcases h with h | h
  · rw [h]
    exact hm
  · rw [h]
    exact hm

/-- In a phase state both clocks advance; a zone that waits counts its wait, any other is evaluated. -/
theorem Plant.sequencerMinute_phase (h : (p.ctx z).state.inPhase = true) :
    let q := p.minuted z (min 65535 ((p.ctx z).stepClock + 1)) (p.unit z).output
    (p.put z (p.unit z).timed).sequencerMinute z = if (p.ctx z).waiting = true then q.waitMinute z else q.evaluate z := by
  intro q
  have hs : ((p.put z (p.unit z).timed).ctx z).state = (p.ctx z).state := by rw [Plant.put_ctx_self]; rfl
  have hm : ((p.put z (p.unit z).timed).context z fun c =>
      { c with stepClock := bump 65535 c.stepClock, runClock := bump 65535 c.runClock }).countCheckpoint z = q := by
    rw [Plant.context_eq_put, Plant.put_unit_self, Plant.put_put]
    exact Plant.countCheckpoint_minuted p z _ rfl
  have hw : (q.ctx z).waiting = (p.ctx z).waiting := by rw [Plant.ctx_eq, Plant.minuted_unit]; rfl
  unfold Plant.sequencerMinute
  rw [hs]
  cases hst : (p.ctx z).state with
  | phase ph =>
    dsimp only
    rw [hm, hw]
  | _ => rw [hst] at h; cases h

theorem Plant.minuteExpiry_eq (p : Plant) (z : Zone) :
    p.minuteExpiry z = ((p.put z (p.unit z).timed).sequencerMinute z).fanMinute z := rfl

/-- The expiry of a minute timer that runs. -/
theorem State.exec_minute {s : State} {z : Zone} (hr : s.mode = .running) (ht : (s.plant.ctx z).minuteTimer.isSome = true) :
    exec (.minuteTimerExpiry z) s = .next (s.moved (s.plant.minuteExpiry z)) :=
  congrArg Host.Outcome.next
    (State.expiry_moved (t := fun p => (p.ctx z).minuteTimer) hr ht fun p => p.minuteExpiry z)

/-! ### The fan (R125) -/

theorem FanMachine.runs_iff (m : FanMachine) : m.runs = true ↔ m = .runFwd ∨ m = .runRev := by
  cases m <;> simp [FanMachine.runs]

/-- A minute of the fan. -/
theorem Plant.fanMinute_fanMinute (p : Plant) (z : Zone) : p.FanMinute (p.fanMinute z) z where
  rests h := by
    refine if_neg fun k => ?_
    obtain ⟨hs, hm⟩ := Bool.and_eq_true_iff.1 k
    rcases h with ⟨hh, hp⟩ | ⟨hf, hb⟩
    · rcases (ZoneState.runs_iff _).1 hs with e | e
      · exact hh e
      · exact Bool.false_ne_true (hp.symm.trans e)
    · rcases (FanMachine.runs_iff _).1 hm with e | e
      · exact hf e
      · exact hb e
  turns := by
    intro hs hm u fan counted due
    have hruns : u.ctx.state.runs = true := (ZoneState.runs_iff _).2 hs
    have hmach : fan.machine.runs = true := (FanMachine.runs_iff _).2 hm
    have hq : p.fanMinute z = (p.put z { u with output := { u.output with fan := counted } }).reverseIfDue z :=
      if_pos (Bool.and_eq_true_iff.2 ⟨hruns, hmach⟩)
    have hdue : ({ u with output := { u.output with fan := counted } } : ZoneUnit).reversalDue = true ↔ due := by
      unfold ZoneUnit.reversalDue
      rw [show counted.machine.runs = true from hmach, show u.ctx.state.runs = true from hruns]
      simp [due, counted, fan]
    unfold Plant.reverseIfDue at hq
    rw [Plant.put_unit_self] at hq
    refine ⟨fun hn => ?_, fun hd => ?_⟩
    · rw [hq, if_neg fun k => hn (hdue.1 k)]
    · have hmachine : (match fan.machine with | .runFwd => .dwellToRev | .runRev => .dwellToFwd | m => m : FanMachine) =
          if fan.machine = .runFwd then .dwellToRev else .dwellToFwd := by
        rcases hm with e | e
        · rw [show fan.machine = .runFwd from e]
          rfl
        · rw [show fan.machine = .runRev from e]
          rfl
      rw [hq, if_pos (hdue.2 hd), ← hmachine]
      unfold Plant.beginDwell Plant.output
      rw [Plant.zone_eq_put, Plant.put_unit_self, Plant.put_put]
      rfl

/-! ### The judgement of the release on a minute -/

/-- Whether a member is in the lockstep set is read from the configuration and from three items of its context (R110). -/
theorem Plant.inStep_congr {q : Plant} {y : Zone} (hw : q.work = p.work) (hd : (q.ctx y).detached = (p.ctx y).detached)
    (hs : (q.ctx y).state = (p.ctx y).state) (hu : (q.ctx y).underlying = (p.ctx y).underlying) :
    q.InStep y ↔ p.InStep y := by
  unfold Plant.InStep
  rw [hw, hd, hs, hu]

/-- A minute moves no member into or out of the lockstep set, and none of its waits. -/
theorem Plant.minuted_inStep (n : Nat) (o : OutputState) (y : Zone) :
    ((p.minuted z n o).InStep y ↔ p.InStep y) ∧ ((p.minuted z n o).ctx y).waiting = (p.ctx y).waiting := by
  by_cases hy : y = z
  · subst hy
    have hc : (p.minuted y n o).ctx y = ((p.unit y).minuted n o).ctx := by rw [Plant.ctx_eq, Plant.minuted_unit]
    exact ⟨Plant.inStep_congr (p.minuted_work y n o) (by rw [hc]; rfl) (by rw [hc]; rfl) (by rw [hc]; rfl), by rw [hc]; rfl⟩
  · have hc : (p.minuted z n o).ctx y = p.ctx y := by rw [Plant.ctx_eq, Plant.minuted_others hy]; rfl
    exact ⟨Plant.inStep_congr (p.minuted_work z n o) (by rw [hc]) (by rw [hc]) (by rw [hc]), by rw [hc]⟩

/-- Before its minimum and its maximum time a step is left for no reason (R86, R87). -/
theorem ZoneUnit.judgeStep_early {u : ZoneUnit} {r : StepRecord} (hmin : u.ctx.stepClock < r.minTime)
    (hmax : u.ctx.stepClock < r.maxTime) (items : ZoneConfig) (ph : Phase) : u.judgeStep items ph r = none := by
  unfold ZoneUnit.judgeStep
  rw [decide_eq_false (by omega), decide_eq_false (by omega)]
  simp

/-- A zone that is not found eligible, with no release to judge, keeps its minute (R86, R111). -/
theorem Plant.evaluate_early {n : Nat} {o : OutputState} {x : StepRecord} (hx : (p.ctx z).activeCopy = some x)
    (hmin : n < x.minTime) (hmax : n < x.maxTime)
    (hr : (∀ y, ¬p.InStep y) ∨ ∃ y, p.InStep y ∧ (p.ctx y).waiting = false) :
    (p.minuted z n o).evaluate z = p.minuted z n o := by
  have ha : (p.minuted z n o).evaluateAlone z = p.minuted z n o := by
    refine (Plant.evaluateAlone_judged _ z).stays fun ph y hs hy => .inr (.inr ?_)
    rw [Plant.ctx_eq, Plant.minuted_unit] at hy
    cases hx.symm.trans hy
    rw [Plant.minuted_unit]
    exact ZoneUnit.judgeStep_early hmin hmax _ _
  unfold Plant.evaluate
  rw [ha]
  refine (Plant.judgeRelease_released _).stays ?_
  rcases hr with hn | ⟨y, hy, hw⟩
  · exact .inl fun y k => hn y ((Plant.minuted_inStep n o y).1.1 k)
  · obtain ⟨hi, hwait⟩ := Plant.minuted_inStep (p := p) (z := z) n o y
    exact .inr ⟨y, hi.2 hy, hwait.trans hw⟩

end Minutes

theorem ZoneState.rests_of_not_watched {st : ZoneState} (h : st.watched = false) : st ≠ .held ∧ st.inPhase = false := by
  cases st <;> simp_all [ZoneState.watched, ZoneState.inPhase]

/-- Settles O33: the sequencer's part of the minute, then the fan's. -/
theorem minuteRule : Obligations.MinuteRule := by
  unfold Obligations.MinuteRule
  intro s z p u fan turning counted due clock after hr ht
  have hx : exec (.minuteTimerExpiry z) s = .next (s.moved (p.minuteExpiry z)) := State.exec_minute hr ht
  rw [hx, Plant.minuteExpiry_eq]
  refine ⟨fun hs => ?rest, fun hs => ?safe, fun n hn => ?runs⟩
  case rest =>
    have hw : (p.ctx z).state.watched = false := by
      simp only [List.mem_cons, List.not_mem_nil, or_false] at hs
      rcases hs with hs | hs | hs | hs <;> exact congrArg ZoneState.watched hs
    have hstate : ((p.put z (p.unit z).timed).ctx z).state = (p.ctx z).state := by rw [Plant.put_ctx_self]; rfl
    rw [Plant.sequencerMinute_rests hw, (Plant.fanMinute_fanMinute _ z).rests (.inl ?_)]
    · rfl
    · rw [hstate]
      exact ZoneState.rests_of_not_watched hw
  case safe =>
    have hstate : ((p.minuted z (p.ctx z).stepClock (p.unit z).output).ctx z).state = .safe := by
      rw [Plant.ctx_eq, Plant.minuted_unit]; exact hs
    rw [Plant.sequencerMinute_stands (.inr hs),
      (Plant.fanMinute_fanMinute _ z).rests (.inl ⟨by rw [hstate]; nofun, by rw [hstate]; rfl⟩)]
    rfl
  case runs =>
    have hseq : (p.put z (p.unit z).timed).sequencerMinute z = p.minuted z n u.output := by
      rcases hn with ⟨hs, rfl⟩ | ⟨hs, rfl, hw, hrel, x, hcopy, hmin, hmax⟩
      · exact Plant.sequencerMinute_stands (.inl hs)
      · rw [Plant.sequencerMinute_phase hs, if_neg (show ¬(p.ctx z).waiting = true from Bool.eq_false_iff.1 hw)]
        exact Plant.evaluate_early hcopy hmin hmax hrel
    have hruns : ((p.minuted z n u.output).ctx z).state = .held ∨ ((p.minuted z n u.output).ctx z).state.inPhase = true := by
      rw [Plant.ctx_eq, Plant.minuted_unit]
      exact hn.imp (fun h => h.1) fun h => h.1
    have hfan : ((p.minuted z n u.output).unit z).output.fan = fan := by rw [Plant.minuted_unit]; rfl
    have hm := Plant.fanMinute_fanMinute (p.minuted z n u.output) z
    rw [hseq]
    refine ⟨fun hstill => ?_, fun hturn hd => ?_, fun hd => ?_⟩
    · rw [hm.rests (.inr (by rw [hfan]; exact not_or.1 hstill))]
      rfl
    · have hnext := (hm.turns hruns (by rw [hfan]; exact hturn)).1
      rw [hfan] at hnext
      rw [hnext fun k => hd ⟨hturn, k⟩, Plant.minuted_unit]
      exact congrArg (fun q => Host.Outcome.next (s.moved q)) (Plant.minuted_put n rfl)
    · have hnext := (hm.turns hruns (by rw [hfan]; exact hd.1)).2
      rw [hfan] at hnext
      rw [hnext hd.2, Plant.minuted_unit, Plant.minuted_work]
      exact congrArg (fun q => Host.Outcome.next (s.moved q)) (Plant.minuted_put n rfl)

end Sys2Proof.Machine
end

section
/-! SUPPORT. Proofs: the eligibility of a zone and the minute that finds it, and the statement on them (R76, R86, R87). -/

namespace Sys2Proof.Machine

/-! ### The condition of a step (R86) -/

section Conditions

variable (u : ZoneUnit) (items : ZoneConfig) (r : StepRecord)

/-- The control moisture content is at or below the step's threshold. -/
def ZoneUnit.Dry : Prop := ∃ c, u.aggregate.cmc = some c ∧ c.aboveRange = false ∧ c.value ≤ r.mcThreshold

/-- A temperature is within the warm-up tolerance of the dry bulb setpoint. -/
def ZoneUnit.Warm (x : Int) : Prop := ∃ d, u.climate.dbSetpoint = some d ∧ d - items.warmupTolerance ≤ x

theorem ZoneUnit.dry_iff :
    (match u.aggregate.cmc with
      | some c => !c.aboveRange && decide (c.value ≤ r.mcThreshold)
      | none => false) = true ↔ u.Dry r := by
  unfold ZoneUnit.Dry
  cases u.aggregate.cmc <;> simp

theorem ZoneUnit.conditionMet_drying : u.conditionMet items .drying r = true ↔ u.Dry r := u.dry_iff r

theorem ZoneUnit.conditionMet_equalize :
    u.conditionMet items .equalize r = true ↔
      u.Dry r ∧ ∃ c d, u.aggregate.cmc = some c ∧ u.aggregate.dmc = some d ∧ c.value - d ≤ items.equalizeSpread := by
  refine Bool.and_eq_true_iff.trans (and_congr (u.dry_iff r) ?_)
  cases u.aggregate.cmc <;> cases u.aggregate.dmc <;> simp

theorem ZoneUnit.conditionMet_condition : ¬u.conditionMet items .condition r = true := Bool.false_ne_true

theorem ZoneUnit.conditionMet_cooldown :
    u.conditionMet items .cooldown r = true ↔
      ∃ x d, u.climate.db.status = .good ∧ u.climate.db.value = some x ∧ u.climate.dbSetpoint = some d ∧ x ≤ d := by
  unfold ZoneUnit.conditionMet
  cases u.climate.dbSetpoint <;> simp [ZoneUnit.dbSatisfies_iff]

theorem ZoneUnit.conditionMet_warmup :
    u.conditionMet items .warmup r = true ↔
      (∃ x, u.climate.db.status = .good ∧ u.climate.db.value = some x ∧ u.Warm items x) ∧
        ∀ t, u.aggregate.zwt = some t → u.Warm items t := by
  unfold ZoneUnit.conditionMet ZoneUnit.Warm
  cases u.climate.dbSetpoint with
  | none => simp
  | some d => cases u.aggregate.zwt <;> simp [ZoneUnit.dbSatisfies_iff]

/-! ### The judgement (R86, R87) -/

/-- Time alone decides over the step: its sensor is not used, or the phase is CONDITION. -/
theorem ZoneUnit.judgeStep_eq (ph : Phase) :
    u.judgeStep items ph r =
      if r.minTime ≤ u.ctx.stepClock ∧ (r.sensor = .notUsed ∨ ph = .condition) then some .timeOnly
      else if r.minTime ≤ u.ctx.stepClock ∧ r.sensor = .used ∧ u.conditionMet items ph r = true then some .sensorMet
      else if ph ≠ .condition ∧ r.maxTime ≤ u.ctx.stepClock then some .maxTime
      else none := by
  unfold ZoneUnit.judgeStep
  simp only [Bool.and_eq_true, Bool.or_eq_true, decide_eq_true_eq, beq_iff_eq, bne_iff_ne, and_assoc]

theorem SensorUse.used_iff (x : SensorUse) : x = .used ↔ ¬x = .notUsed := by cases x <;> simp

/-- The reason with which a step is found eligible, where `met` says that its phase's condition is met (R86, R87). -/
theorem ZoneUnit.judgeStep_iff (ph : Phase) {met : Prop} (hm : u.conditionMet items ph r = true ↔ met) :
    let past := r.minTime ≤ u.ctx.stepClock
    (u.judgeStep items ph r = some .timeOnly ↔ past ∧ (r.sensor = .notUsed ∨ ph = .condition)) ∧
    (u.judgeStep items ph r = some .sensorMet ↔ past ∧ r.sensor = .used ∧ ph ≠ .condition ∧ met) ∧
    (u.judgeStep items ph r = some .maxTime ↔
      ph ≠ .condition ∧ r.maxTime ≤ u.ctx.stepClock ∧ ¬(past ∧ (r.sensor = .notUsed ∨ met))) ∧
    u.judgeStep items ph r ≠ some .skipped := by
  intro past
  have hused := SensorUse.used_iff r.sensor
  have hunmet : u.conditionMet items ph r = false ↔ ¬u.conditionMet items ph r = true := Bool.eq_false_iff
  rw [ZoneUnit.judgeStep_eq, ← hm]
  split
  · next h => simp; tauto
  · next h =>
    split
    · next k => simp; tauto
    · next k =>
      split
      · next l => simp; tauto
      · next l => simp; tauto

end Conditions

/-- Settles O34: the phase's condition decides over the reason, and the minute's evaluation over what follows. -/
theorem eligibilityRule : Obligations.EligibilityRule := by
  unfold Obligations.EligibilityRule
  refine ⟨?reason, ?minute⟩
  case reason =>
    intro u items ph r past warm dry condition
    refine u.judgeStep_iff items r ph ?_
    cases ph with
    | warmup => exact u.conditionMet_warmup items r
    | drying => exact u.conditionMet_drying items r
    | equalize => exact u.conditionMet_equalize items r
    | condition => exact iff_of_false (u.conditionMet_condition items r) id
    | cooldown => exact u.conditionMet_cooldown items r
  case minute =>
    intro s z p u v clocked hr ht hs hw
    have hx : exec (.minuteTimerExpiry z) s = .next (s.moved (p.minuteExpiry z)) := State.exec_minute hr ht
    rw [hx, Plant.minuteExpiry_eq, Plant.sequencerMinute_phase hs,
      if_neg (show ¬(p.ctx z).waiting = true from Bool.eq_false_iff.1 hw)]
    exact ⟨_, _, rfl, Plant.evaluate_evaluated _ z, Plant.fanMinute_fanMinute _ z⟩

end Sys2Proof.Machine
end

section
/-! SUPPORT. Proofs: hold-together, the waits of the lockstep set and the detach, and the statement on them (R109 to R112). -/

namespace Sys2Proof.Machine

section Lockstep

variable {p : Plant} {z : Zone}

/-! ### Hold-together (R109) -/

/-- With hold-together a member that runs reaches itself and every other member that runs. -/
theorem Plant.reached_together (hg : (p.work.config.zones.get z).grouped = true) (hs : (p.ctx z).state.runs = true)
    (ht : p.work.config.group.holdTogether = true) :
    z :: p.reached z = (z :: everyZone.filter (· != z)).filter fun y => p.grouped y && (p.ctx y).state.runs := by
  have hz : (p.grouped z && (p.ctx z).state.runs) = true := Bool.and_eq_true_iff.2 ⟨hg, hs⟩
  have hr : p.reached z = everyZone.filter fun y => y != z && p.grouped y && (p.ctx y).state.runs :=
    if_pos (Bool.and_eq_true_iff.2 ⟨ht, hg⟩)
  rw [List.filter_cons, if_pos hz, hr, List.filter_filter]
  refine congrArg (z :: ·) (congrArg (everyZone.filter ·) (funext fun y => ?_))
  rw [Bool.and_comm (y != z), Bool.and_right_comm, Bool.and_comm]

theorem zoneOrder_nodup (z : Zone) : (z :: everyZone.filter (· != z)).Nodup := by cases z <;> decide

/-! ### The wait of a member (R110, R112) -/

/-- A member's wait counted, within its limit. -/
theorem Plant.waitMinute_stays (h : p.work.config.group.waitLimit = 0 ∨
    min 1441 ((p.ctx z).waitCount + 1) ≤ p.work.config.group.waitLimit) :
    p.waitMinute z =
      p.put z { p.unit z with ctx := { p.ctx z with waitCount := min 1441 ((p.ctx z).waitCount + 1) } } := by
  refine if_neg fun ⟨hn, hl⟩ => ?_
  rw [Plant.ctx_context_self] at hl
  rcases h with h | h
  · exact hn h
  · exact absurd hl (Nat.not_lt.2 h)

/-- Past its limit the member detaches and advances alone with its kept reason, and the release is judged (R112). -/
theorem Plant.waitMinute_detaches {reason : ExitReason} (hl : p.work.config.group.waitLimit ≠ 0)
    (hc : p.work.config.group.waitLimit < min 1441 ((p.ctx z).waitCount + 1)) (he : (p.ctx z).eligible = some reason) :
    let detached : Plant :=
      (p.put z
        { p.unit z with
          ctx :=
            { p.ctx z with
              waitCount := min 1441 ((p.ctx z).waitCount + 1), detached := true, waiting := false } }).raise
        (.zone z .groupDetached)
    ∃ x, detached.Advances x z reason ∧ x.Released (p.waitMinute z) := by
  intro detached
  have hw : p.waitMinute z = (detached.advance z).judgeRelease := by
    have hcount : p.work.config.group.waitLimit <
        ((p.context z fun c => { c with waitCount := bump 1441 c.waitCount }).ctx z).waitCount := by
      rw [Plant.ctx_context_self]
      exact hc
    refine (if_pos ⟨hl, hcount⟩).trans ?_
    unfold Plant.detach
    rw [Plant.context_eq_put, Plant.context_eq_put, Plant.put_unit_self, Plant.put_put]
    rfl
  have hput : detached.put z { detached.unit z with ctx := { detached.ctx z with eligible := some reason } } = detached := by
    have hu : ({ detached.unit z with ctx := { detached.ctx z with eligible := some reason } } : ZoneUnit) =
        detached.unit z := by
      have hd : (detached.ctx z).eligible = some reason := by
        rw [Plant.raise_ctx, Plant.put_ctx_self]
        exact he
      rw [← hd]
      rfl
    rw [hu, Plant.put_unit]
  have ha := detached.advance_advances z reason
  rw [hput] at ha
  exact ⟨_, ha, hw ▸ Plant.judgeRelease_released _⟩

end Lockstep

/-- Settles O54: hold-together treats the named zone and then every other member that runs, and a wait is counted until the
member detaches. -/
theorem lockstepRule : Obligations.LockstepRule := by
  unfold Obligations.LockstepRule
  intro s env z p u grouped runs lined order
  have hruns : ∀ y, (p.ctx y).state.runs = true ↔ runs y := fun y => ZoneState.runs_iff _
  have reaches : ∀ y, (p.grouped y && (p.ctx y).state.runs) = true ↔ grouped y ∧ runs y := fun y =>
    Bool.and_eq_true_iff.trans (and_congr Iff.rfl (hruns y))
  refine ⟨?hold, ?resume, ?skip, ?minute⟩
  case hold =>
    intro h hs hg ht
    refine ⟨_, _, congrArg _ (State.take_performed h env ((performHold_zone p z).trans (if_pos ((hruns z).2 hs)))), ?_,
      Plant.judgeRelease_released _⟩
    rw [Plant.reached_together hg ((hruns z).2 hs) ht]
    refine Plant.chain_only Plant.hostHold _ (fun y x => .joinHold x y _) (fun y x => .joinHold x y _)
      (fun y x _ hu hy => ⟨fun hn => absurd ((reaches y).1 hy) hn, fun _ _ => ?_⟩)
      (fun y x hy => ⟨fun _ => rfl, fun hg hr => absurd ((reaches y).2 ⟨hg, hr⟩) (Bool.eq_false_iff.1 hy)⟩)
      order (zoneOrder_nodup z) p (.refl p) fun _ _ => rfl
    have hgain := x.joinHold_gained y (fun h => { h with host := true }) rfl
    rw [Plant.ctx_eq, hu] at hgain
    exact hgain
  case resume =>
    intro h hfield hs hg ht affected
    refine ⟨_, _, congrArg _ (State.take_performed h env (performResume_runs z hfield hs)), ?_,
      Plant.judgeRelease_released _⟩
    rw [Plant.reached_together hg ((hruns z).2 hs) ht]
    have within : ∀ y, affected y → grouped y ∧ runs y := fun y ⟨hy, hs⟩ => ⟨hy, hs.imp id fun k => k.1⟩
    refine Plant.chain_only Plant.hostResume _ (fun y x => .ite (.leaveHold x y _) (.refl x))
      (fun y x => .ite (.leaveHold x y _) (.refl x)) (fun y x _ hu hy => ?_)
      (fun y x hy => ⟨fun _ => rfl, fun ha => absurd ((reaches y).2 (within y ha)) (Bool.eq_false_iff.1 hy)⟩)
      order (zoneOrder_nodup z) p (.refl p) fun _ _ => rfl
    obtain ⟨hgrouped, hrun⟩ := (reaches y).1 hy
    have hctx : x.ctx y = p.ctx y := congrArg ZoneUnit.ctx hu
    refine ⟨fun hn => ?_, fun ⟨_, ha⟩ => ?_⟩
    · rcases hrun with hh | hin
      · exact absurd ⟨hgrouped, .inl hh⟩ hn
      · refine Plant.hostResume_unaffected (by rw [hctx]; exact hin) (Bool.eq_false_iff.2 fun k => ?_)
        rw [hctx] at k
        exact hn ⟨hgrouped, .inr ⟨hin, k⟩⟩
    · have hleft : x.HoldLeft (x.hostResume y) y { host := false, line := (x.ctx y).holds.line } :=
        Plant.hostResume_left (by rw [hctx]; exact ha.imp id fun k => k.2)
      rw [hctx] at hleft
      exact hleft
  case skip =>
    intro h hi hs hp
    have hf := performSkip_zone p z
    have hc : ((p.ctx z).state.inPhase && !(p.ctx z).holdPending) = true :=
      Bool.and_eq_true_iff.2 ⟨hs, congrArg (!·) hp⟩
    rw [if_pos hc, Plant.becomeEligible_waits hs hi] at hf
    exact ⟨_, congrArg _ (State.take_performed h env hf), Plant.judgeRelease_released _⟩
  case minute =>
    intro hr ht hs hw v clocked count limit counted detached
    have hx : exec (.minuteTimerExpiry z) s = .next (s.moved (p.minuteExpiry z)) := State.exec_minute hr ht
    have hseq : (p.put z (p.unit z).timed).sequencerMinute z = clocked.waitMinute z :=
      (Plant.sequencerMinute_phase hs).trans (if_pos hw)
    have hunit : clocked.unit z = v := Plant.minuted_unit p z _ _
    have hwork : clocked.work = p.work := Plant.minuted_work p z _ _
    refine ⟨_, _, hx.trans (congrArg (fun q => Host.Outcome.next (s.moved q)) (p.minuteExpiry_eq z)),
      Plant.fanMinute_fanMinute _ z, fun hl => ?_, fun reason hl hc he => ?_⟩
    · rw [hseq, Plant.waitMinute_stays (by rw [hwork, Plant.ctx_eq, hunit]; exact hl), Plant.ctx_eq, hunit]
    · obtain ⟨x, ha, hrel⟩ := Plant.waitMinute_detaches (p := clocked) (z := z) (reason := reason)
        (by rw [hwork]; exact hl) (by rw [hwork, Plant.ctx_eq, hunit]; exact hc) (by rw [Plant.ctx_eq, hunit]; exact he)
      rw [hseq]
      rw [Plant.ctx_eq, hunit] at ha
      exact ⟨x, ha, hrel⟩

end Sys2Proof.Machine
end

section
/-! SUPPORT. Proofs: GO of a zone and of a member, and the statements on them (R77, R79, R81 to R83, R105 to R107, R138). -/

namespace Sys2Proof.Machine

section Go

variable {p : Plant} {z : Zone}

theorem performStartZone_undefined (p : Plant) {n : Nat} (h : 4 ≤ n) : performStartZone n p = .refuse .badValue := by
  rw [performStartZone, zoneOf_eq_none h]

/-- The field, the start mask or the state of the zone refuses a start (R77). -/
theorem performStartZone_refused
    (h : p.fieldEnabled = false ∨ (p.items z).startMask.host = false ∨ (p.ctx z).state ≠ .idle) :
    performStartZone z.code p = .refuse .wrongState := by
  rw [performStartZone, zoneOf_code]
  dsimp only
  split
  · rfl
  · next hf =>
    split
    · rfl
    · next hm =>
      refine if_pos ?_
      rcases h with h | h | h
      · simp [h] at hf
      · simp [h] at hm
      · exact h

/-- The checks on the field, the mask and the state of a zone are passed. -/
structure Plant.MayStart (p : Plant) (z : Zone) : Prop where
  field : p.fieldEnabled = true
  mask : (p.items z).startMask.host = true
  idle : (p.ctx z).state = .idle

theorem performStartZone_finding (h : p.MayStart z) {f : Finding} (hv : p.validate z = some f) :
    performStartZone z.code p = .answered { status := .badSchedule, content := .finding f } := by
  rw [performStartZone, zoneOf_code]
  dsimp only
  rw [h.field, h.mask, if_neg (by simp), if_neg (by simp), if_neg (not_not.2 h.idle), hv]

/-- A zone that may start, and whose schedule has no finding, starts: with its group where it is a member. -/
theorem performStartZone_starts (h : p.MayStart z) (hv : p.validate z = none) :
    performStartZone z.code p =
      .ok (if p.grouped z = true then p.groupStart .host (· == z) else p.startAlone z .host) := by
  rw [performStartZone, zoneOf_code]
  dsimp only
  rw [h.field, h.mask, if_neg (by simp), if_neg (by simp), if_neg (not_not.2 h.idle), hv]

theorem performStartZone_grouped (h : p.MayStart z) (hv : p.validate z = none)
    (hg : (p.work.config.zones.get z).grouped = true) :
    performStartZone z.code p = .ok (p.groupStart .host (· == z)) :=
  (performStartZone_starts h hv).trans (congrArg (fun q => Performance.ok q) (if_pos hg))

theorem performStartZone_alone (h : p.MayStart z) (hv : p.validate z = none)
    (hg : (p.work.config.zones.get z).grouped = false) : performStartZone z.code p = .ok (p.startAlone z .host) :=
  (performStartZone_starts h hv).trans
    (congrArg (fun q => Performance.ok q) (if_neg fun k => Bool.false_ne_true (hg.symm.trans k)))

/-- Settles O53: GO naming a member is a group start from HOST, with that member alone as its initiating one. -/
theorem groupStartRule : Obligations.GroupStartRule := by
  unfold Obligations.GroupStartRule
  intro s env z h p hf hm hg hs hv
  have hgo := performStartZone_grouped (p := p) (z := z) ⟨hf, hm, hs⟩ hv hg
  exact ⟨_, congrArg _ (State.take_performed h env hgo), (Plant.Kept.groupStart p _ _).same,
    p.groupStart_started .host (· == z) (fun y => y = z) fun y => beq_iff_eq⟩

/-! ### The start of a zone that is no member -/

theorem ClimateState.started_sensors (c : ClimateState) (d w : Int) :
    (c.started d w).db = c.db ∧ (c.started d w).wb = c.wb := by
  unfold ClimateState.started
  split <;> exact ⟨rfl, rfl⟩

/-- The first phase of a zone in STARTING on which no interlock condition stands, with no hold line active (R82, R83, R138). -/
theorem Plant.FirstPhase.plain {q : Plant} {ph : Phase} {i : Fin 128} {x : StepRecord} (h : p.FirstPhase q z)
    (hs : (p.ctx z).state = .starting) (he : p.FirstEntry z ph i x) (hm : p.Meets z) (hd : p.doorOpen = false)
    (hh : p.holdIn = false) (ho : (p.unit z).proofOverdue = false) (hc : (p.unit z).causes.any = false) :
    let v := (p.unit z).entered ph i x p.kiln.maximumDb (p.work.config.zones.get z).dwell
    q =
      (((p.raiseIf (decide (p.kiln.maximumDb < x.db)) (.zone z .targetClamped)).raise (.zone z .phaseChanged)).put z v).enqueue
        (.checkpoint z v.checkpoint) := by
  intro v
  obtain ⟨t, ht, -, hstand⟩ := h.enters ph i x hs he hc
  obtain ⟨-, -, -, hdb, hwb, value, hvalue, hlimit⟩ := hm
  have htr := ht hh
  have hu : t.unit z = v := by rw [htr, Plant.enqueue_unit, Plant.put_unit_self]
  obtain ⟨hdb', hwb'⟩ : v.climate.db = (p.unit z).climate.db ∧ v.climate.wb = (p.unit z).climate.wb :=
    ClimateState.started_sensors _ _ _
  have none_stands : t.Stand z { door := false, sensor := false, fan := false, overtemp := false } := by
    refine ⟨?_, ?_, ?_, ?_⟩
    · rw [htr, Plant.enqueue_doorOpen, Plant.put_doorOpen, Plant.raise_doorOpen, Plant.raiseIf_doorOpen, hd]
    · rw [hu, hdb', hwb', hdb, hwb]
      simp
    · rw [hu, show v.proofOverdue = false from ho]
      simp
    · have hk : t.kiln = p.kiln := by
        rw [htr, Plant.enqueue_kiln, Plant.put_kiln, Plant.raise_kiln, Plant.raiseIf_kiln]
      rw [hu, hdb', hvalue, hk]
      simp only [Bool.false_eq_true, Option.some.injEq, false_iff, not_and, not_exists]
      rintro - _ rfl
      omega
  exact ((hstand _ none_stands).1 rfl).trans htr

end Go

/-- Settles O20: the checks of GO in their order, and the evaluation of the zone that they put into STARTING. -/
theorem startZoneRule : Obligations.StartZoneRule := by
  unfold Obligations.StartZoneRule
  intro s env z h p u items refused limit met begun
  refine ⟨fun n hn => ?undefined, fun hs => ?refused, fun hf hm hs =>
    ⟨fun f hv => ?finding, fun hv hg => ?started⟩⟩
  case undefined => exact congrArg _ (State.take_refuse h env (performStartZone_undefined p hn))
  case refused => exact congrArg _ (State.take_refuse h env (performStartZone_refused hs))
  case finding =>
    have hgo := performStartZone_finding (p := p) (z := z) ⟨hf, hm, hs⟩ hv
    have hx : s.take env .go (fun t => t.ask (performStartZone z.code)) =
        s.answered .go env p { status := .badSchedule, content := .finding f } := by
      rw [State.take_ask h, hgo]
    exact congrArg _ hx
  case started =>
    let w : ZoneUnit :=
      { u with
        ctx := begun (some (p.kiln.startTimeout * 60000)), output := { u.output with fan := u.output.fan.running } }
    have hgo := performStartZone_alone (p := p) (z := z) ⟨hf, hm, hs⟩ hv hg
    have hw : p.startAlone z .host = (p.put z w).evaluateStart z := p.startAlone_eq z .host
    have hj : (p.put z w).StartJudged (p.startAlone z .host) z :=
      hw ▸ Plant.evaluateStart_judged _ z (by rw [Plant.put_ctx_self])
    have hx : exec (.startZone env z.code) s =
        .next (s.answered .go env (settle p (p.startAlone z .host)) { status := .ok }) :=
      congrArg _ (State.take_performed h env hgo)
    have hmeets : (p.put z w).Meets z ↔ met := by
      unfold Plant.Meets
      rw [Plant.put_unit_self]
      exact Iff.rfl
    refine ⟨⟨_, hj, hx⟩, fun hn => ?waits, ?enters⟩
    case waits =>
      rw [hx, hj.waits hg fun k => hn (hmeets.1 k), Plant.put_unit_self, Plant.put_ctx_self, Plant.put_put]
    case enters =>
      intro hmet hd hh ho hc ph i x hfirst hi hrec v
      have hu : ((p.put z w).put z { (p.put z w).unit z with ctx := { (p.put z w).ctx z with ready := true } }).unit z =
          { w with ctx := { w.ctx with ready := true } } := by
        rw [Plant.put_unit_self, Plant.put_unit_self, Plant.put_ctx_self]
      have hentered : ({ w with ctx := { w.ctx with ready := true } } : ZoneUnit).entered ph i x p.kiln.maximumDb
          (p.work.config.zones.get z).dwell = v := by
        unfold ZoneUnit.entered
        rw [OutputState.turned_running]
        rfl
      have hq := (hj.enters hg (hmeets.2 hmet)).plain (ph := ph) (i := i) (x := x) (by rw [Plant.ctx_eq, hu])
        ⟨hfirst, hi, hrec⟩ (by unfold Plant.Meets; rw [hu]; exact hmet) hd hh (by rw [hu]; exact ho) (by rw [hu]; exact hc)
      rw [hx, hq, hu]
      simp only [Plant.put_kiln, Plant.put_work, hentered, Plant.raiseIf_put, Plant.put_raise, Plant.put_put]

end Sys2Proof.Machine
end

section
/-! SUPPORT. Proofs: the delayed start, what a start keeps through the first phase entry, and the statement on it (R78, R80, R85,
R105 to R107). -/

namespace Sys2Proof.Machine

/-! ### What a run keeps -/

/-- What a zone carries through at most `n` entries of its run record: its start source, its last failure, its run clock, the
dropped count while the record has room, and that it has left IDLE. -/
structure ZoneContext.Carries (n : Nat) (c d : ZoneContext) : Prop where
  source : d.startSource = c.startSource
  failure : d.lastFailure = c.lastFailure
  clock : d.runClock = c.runClock
  record : d.runRecord.length ≤ c.runRecord.length + n
  dropped : c.runRecord.length + n ≤ 48 → d.dropped = c.dropped
  begun : c.state ≠ .idle → d.state ≠ .idle

namespace ZoneContext.Carries

variable {c d e : ZoneContext} {m n : Nat}

theorem refl (c : ZoneContext) : c.Carries 0 c := ⟨rfl, rfl, rfl, Nat.le_refl _, fun _ => rfl, id⟩

theorem trans (h : c.Carries m d) (k : d.Carries n e) : c.Carries (m + n) e where
  source := k.source.trans h.source
  failure := k.failure.trans h.failure
  clock := k.clock.trans h.clock
  record := by have := h.record; have := k.record; omega
  dropped hl := by
    have := h.record
    exact (k.dropped (by omega)).trans (h.dropped (by omega))
  begun := k.begun ∘ h.begun

theorem mono (h : c.Carries m d) (hmn : m ≤ n) : c.Carries n d :=
  ⟨h.source, h.failure, h.clock, by have := h.record; omega, fun hl => h.dropped (by omega), h.begun⟩

/-- One entry more (R97). -/
theorem gain (c : ZoneContext) (x : RunEntry) : c.Carries 1 (c.gain x) where
  source := rfl
  failure := rfl
  clock := rfl
  record := by
    simp only [ZoneContext.gain, List.length_append, List.length_singleton]
    split
    · exact Nat.le_refl _
    · rw [List.length_drop]; omega
  dropped hl := if_pos (by omega)
  begun := id

/-- A context that keeps the five items of another, and its state or one beyond IDLE. -/
theorem of_items (hs : e.startSource = d.startSource) (hf : e.lastFailure = d.lastFailure) (hc : e.runClock = d.runClock)
    (hr : e.runRecord = d.runRecord) (hd : e.dropped = d.dropped) (hi : e.state = d.state ∨ e.state ≠ .idle) :
    d.Carries 0 e :=
  ⟨hs, hf, hc, hr ▸ Nat.le_refl _, fun _ => hd, fun h => hi.elim (fun k => k ▸ h) id⟩

/-- A context beyond IDLE that has gained one entry and keeps the rest. -/
theorem gained (x : RunEntry) (hs : e.startSource = d.startSource) (hf : e.lastFailure = d.lastFailure)
    (hc : e.runClock = d.runClock) (hr : e.runRecord = (d.gain x).runRecord) (hd : e.dropped = (d.gain x).dropped)
    (hi : e.state ≠ .idle) : d.Carries 1 e :=
  (gain d x).trans (of_items hs hf hc hr hd (.inr hi))

/-- A context that keeps the five items and its state. -/
theorem same (hs : e.startSource = d.startSource) (hf : e.lastFailure = d.lastFailure) (hc : e.runClock = d.runClock)
    (hr : e.runRecord = d.runRecord) (hd : e.dropped = d.dropped) (hi : e.state = d.state) : d.Carries n e :=
  (of_items hs hf hc hr hd (.inl hi)).mono (Nat.zero_le n)

end ZoneContext.Carries

namespace Plant

variable {p q : Plant} {z : Zone}

theorem Caused.carries {causes : SafeCauses} (h : p.Caused q z causes) : (p.ctx z).Carries 1 (q.ctx z) := by
  have running : (p.ctx z).state = .held ∨ (p.ctx z).state.inPhase = true → (p.ctx z).Carries 1 (q.ctx z) := fun hr => by
    cases hc : causes.any with
    | true =>
      have hsec := h.enters hr hc
      unfold Plant.Secured at hsec
      rw [hsec, Plant.enqueue_ctx, Plant.put_ctx_self]
      exact .gained _ rfl rfl rfl rfl rfl (show ZoneState.safe ≠ .idle from nofun)
    | false =>
      rw [h.stays hr hc, Plant.put_ctx_self]
      exact .same rfl rfl rfl rfl rfl rfl
  have rests : (p.ctx z).state.watched = false → (p.ctx z).Carries 1 (q.ctx z) := fun hw => by
    rw [h.rests hw]
    exact .same rfl rfl rfl rfl rfl rfl
  cases hs : (p.ctx z).state with
  | held => exact running (.inl hs)
  | phase ph => exact running (.inr (congrArg ZoneState.inPhase hs))
  | safe =>
    cases hc : causes.any with
    | true =>
      rw [h.remains hs hc, Plant.put_ctx_self]
      exact .same rfl rfl rfl rfl rfl rfl
    | false =>
      rw [h.leaves hs hc, Plant.enqueue_ctx, Plant.put_ctx_self]
      exact .gained _ rfl rfl rfl rfl rfl (show ZoneState.held ≠ .idle from nofun)
  | idle => exact rests (congrArg ZoneState.watched hs)
  | starting => exact rests (congrArg ZoneState.watched hs)
  | done => exact rests (congrArg ZoneState.watched hs)
  | resumePending => exact rests (congrArg ZoneState.watched hs)

theorem HoldGained.carries {holds : HoldCauses} (h : p.HoldGained q z holds) : (p.ctx z).Carries 1 (q.ctx z) := by
  by_cases hh : (p.ctx z).state = .held
  · rw [h.joins (.inl hh), Plant.put_ctx_self]
    exact .same rfl rfl rfl rfl rfl rfl
  · cases hs : (p.ctx z).state with
    | phase ph =>
      have hin : (p.ctx z).state.inPhase = true := congrArg ZoneState.inPhase hs
      cases hc : (p.ctx z).holds.any with
      | true =>
        rw [h.joins (.inr ⟨hin, hc⟩), Plant.put_ctx_self]
        exact .same rfl rfl rfl rfl rfl rfl
      | false =>
        by_cases ha : (p.unit z).climate.Away
        · rw [h.pends hin hc ha, Plant.put_ctx_self]
          exact .same rfl rfl rfl rfl rfl rfl
        · rw [h.holds ph hs hc ha, Plant.enqueue_ctx, Plant.put_ctx_self]
          exact .gained _ rfl rfl rfl rfl rfl (show ZoneState.held ≠ .idle from nofun)
    | _ =>
      rw [h.rests hh (by rw [hs]; rfl)]
      exact .same rfl rfl rfl rfl rfl rfl

theorem enterStep_carries (p : Plant) (z : Zone) (ph : Phase) (i : Fin 128) (start : RampFrom) :
    (p.ctx z).Carries 0 ((p.enterStep z ph i start).ctx z) := by
  have hq : ∀ r : Plant, (r.ctx z).runRecord = (p.ctx z).runRecord → (r.ctx z).dropped = (p.ctx z).dropped →
      (r.ctx z).startSource = (p.ctx z).startSource → (r.ctx z).lastFailure = (p.ctx z).lastFailure →
      (r.ctx z).runClock = (p.ctx z).runClock → (r.ctx z).state = .phase ph →
      ∀ a, (p.ctx z).Carries 0 (((r.raise a).queueCheckpoint z).ctx z) := fun r hr hd hs hf hc hst a => by
    rw [Plant.queueCheckpoint_ctx, Plant.raise_ctx]
    exact .of_items hs hf hc hr hd (.inr (by dsimp only; rw [hst]; nofun))
  unfold Plant.enterStep
  dsimp only
  split
  · refine hq _ ?_ ?_ ?_ ?_ ?_ ?_ _ <;>
      rw [Plant.setInterval_ctx, Plant.startRamp, Plant.climate_ctx, Plant.formSetpoints_ctx, Plant.ctx_context_self]
  · refine hq _ ?_ ?_ ?_ ?_ ?_ ?_ _ <;> rw [Plant.ctx_context_self]

theorem record_carries (p : Plant) (z : Zone) (k : RunKind) : (p.ctx z).Carries 1 ((p.record z k).ctx z) := by
  rw [Plant.record_eq, Plant.put_ctx_self]
  exact .gain _ _

/-- A first phase entry adds at most three entries: STARTED, HELD and SAFE_ENTERED (R82, R91, R138). -/
theorem enterFirstPhase_carries (p : Plant) (z : Zone) : (p.ctx z).Carries 3 ((p.enterFirstPhase z).ctx z) := by
  unfold Plant.enterFirstPhase
  split
  · exact (ZoneContext.Carries.refl _).mono (Nat.zero_le _)
  · next ph i _ =>
    have hr : (p.ctx z).Carries 1 ((((p.context z fun c =>
        { c with startTimeout := none, ready := false, minuteTimer := some 60000 }).enterStep z ph i .measured).record z
          .started).ctx z) := by
      refine ZoneContext.Carries.trans (m := 0) ?_ (record_carries _ z .started)
      refine ZoneContext.Carries.trans (m := 0) ?_ (enterStep_carries _ z ph i .measured)
      rw [Plant.ctx_context_self]
      exact .of_items rfl rfl rfl rfl rfl (.inl rfl)
    refine ZoneContext.Carries.trans (m := 2) ?_ (Plant.judgeWatched_caused _ z).carries
    split
    · exact hr.trans (Plant.joinHold_gained _ z (fun x => { x with line := true }) (Bool.or_true _)).carries
    · exact hr.mono (by omega)

/-! ### Folds over zones -/

/-- A zone that is not among those treated stays as it is. -/
theorem foldl_out {f : Plant → Zone → Plant} {zs : List Zone} (hk : ∀ (x : Plant) y, x.Kept (f x y)) (hz : z ∉ zs) :
    ∀ (x : Plant), p.Kept x → (∀ x y, p.Kept x → y ∈ zs → Plant.Only y x (f x y)) → (zs.foldl f x).unit z = x.unit z := by
  induction zs with
  | nil => exact fun _ _ _ => rfl
  | cons y zs ih =>
    intro x hx ho
    rw [List.mem_cons, not_or] at hz
    rw [List.foldl_cons, ih hz.2 _ (hx.trans (hk x y)) fun x w hx hw => ho x w hx (List.mem_cons_of_mem y hw)]
    exact (ho x y hx List.mem_cons_self).others z hz.1

/-- A zone that is among them has one turn, and comes to it as the event has found it. -/
theorem foldl_turn {f : Plant → Zone → Plant} {zs : List Zone} (hn : zs.Nodup) (hk : ∀ (x : Plant) y, x.Kept (f x y)) (hz : z ∈ zs) :
    ∀ (x : Plant), p.Kept x → (∀ x y, p.Kept x → y ∈ zs → Plant.Only y x (f x y)) →
      ∃ w : Plant, p.Kept w ∧ w.unit z = x.unit z ∧ (f w z).Kept (zs.foldl f x) ∧
        (zs.foldl f x).unit z = (f w z).unit z := by
  induction zs with
  | nil => cases hz
  | cons y zs ih =>
    intro x hx ho
    obtain ⟨hy, hn⟩ := List.nodup_cons.1 hn
    have ho' : ∀ x w, p.Kept x → w ∈ zs → Plant.Only w x (f x w) := fun x w hx hw => ho x w hx (List.mem_cons_of_mem y hw)
    rw [List.foldl_cons]
    by_cases hzy : z = y
    · subst hzy
      exact ⟨x, hx, rfl, .foldl f (fun x w => hk x w) zs _, foldl_out hk hy _ (hx.trans (hk x z)) ho'⟩
    · have hz' : z ∈ zs := (List.mem_cons.1 hz).resolve_left hzy
      obtain ⟨w, hw, hu, hkept, hunit⟩ := ih hn hz' (f x y) (hx.trans (hk x y)) ho'
      exact ⟨w, hw, hu.trans ((ho x y hx List.mem_cons_self).others z hzy), hkept, hunit⟩

/-! ### The judgement of the group -/

/-- The judgement of the group treats the members in STARTING, and no other zone (R107). -/
theorem judgeGroup_cases (p : Plant) (z : Zone) :
    (¬p.Standing z → p.judgeGroup.unit z = p.unit z) ∧ (p.ctx z).Carries 3 (p.judgeGroup.ctx z) := by
  have refl : (p.ctx z).Carries 3 (p.ctx z) := (ZoneContext.Carries.refl _).mono (Nat.zero_le _)
  unfold Plant.judgeGroup
  dsimp only
  split
  · exact ⟨fun _ => rfl, refl⟩
  · split
    · have ho : ∀ x y, p.Kept x → y ∈ p.startingSet → Plant.Only y x (x.enterFirstPhase y) := fun x y _ _ =>
        .enterFirstPhase x y
      have hk : ∀ (x : Plant) (y : Zone), x.Kept (x.enterFirstPhase y) := fun x y => .enterFirstPhase x y
      by_cases hz : p.Standing z
      · obtain ⟨w, -, hu, -, hunit⟩ := foldl_turn (f := Plant.enterFirstPhase) (zs := p.startingSet)
          ((by decide : Zone.order.Nodup).filter _) hk ((p.mem_startingSet z).2 hz) _ (.groupTimeout p none) ho
        refine ⟨fun h => absurd hz h, ?_⟩
        have hc : w.ctx z = p.ctx z := congrArg ZoneUnit.ctx hu
        have hd : (p.startingSet.foldl Plant.enterFirstPhase { p with groupTimeout := none }).ctx z =
            (w.enterFirstPhase z).ctx z := congrArg ZoneUnit.ctx hunit
        rw [hd, ← hc]
        exact w.enterFirstPhase_carries z
      · have hout := foldl_out (f := Plant.enterFirstPhase) hk (fun k => hz ((p.mem_startingSet z).1 k)) _
          (.groupTimeout p none) ho
        have hd : (p.startingSet.foldl Plant.enterFirstPhase { p with groupTimeout := none }).ctx z = p.ctx z :=
          congrArg ZoneUnit.ctx hout
        refine ⟨fun _ => hout, ?_⟩
        rw [hd]
        exact refl
    · exact ⟨fun _ => rfl, refl⟩

/-! ### A group start -/

/-- The members that a group start takes (R105). -/
def takenMembers (p : Plant) : List Zone := Zone.order.filter fun z => p.grouped z && (p.ctx z).state == .idle

theorem mem_takenMembers (p : Plant) (z : Zone) : z ∈ p.takenMembers ↔ p.grouped z = true ∧ (p.ctx z).state = .idle := by
  simp [takenMembers, Zone.mem_order]

/-- The plant with those members taken. -/
def membersTaken (p : Plant) (source : StartSource) (hit : Zone → Bool) : Plant :=
  p.takenMembers.foldl (fun q z => q.takeMember z (if hit z then source else .group)) p

theorem membersTaken_taken (p : Plant) (source : StartSource) (hit : Zone → Bool) :
    p.Taken (p.membersTaken source hit) p.takenMembers fun z => if hit z then source else .group :=
  Plant.takeMembers_taken _ (fun z => if hit z then source else .group) ((by decide : Zone.order.Nodup).filter _) p

/-- The evaluation of some members in STARTING changes their ready marks alone. -/
theorem Marked.ctx {zs : List Zone} (h : p.Marked q zs) (z : Zone) :
    (q.Standing z ↔ p.Standing z) ∧ (p.ctx z).Carries 0 (q.ctx z) ∧ (z ∉ zs → q.unit z = p.unit z) := by
  have hc : ∃ ready, q.ctx z = { p.ctx z with ready := ready } := by
    by_cases hz : z ∈ zs
    · exact ⟨!(p.unmet z).any, congrArg ZoneUnit.ctx (h.mark z hz)⟩
    · exact ⟨(p.ctx z).ready, congrArg ZoneUnit.ctx (h.out z hz)⟩
  obtain ⟨ready, hc⟩ := hc
  refine ⟨?_, ?_, h.out z⟩
  · unfold Plant.Standing
    rw [hc, h.kept.work]
  · rw [hc]
    exact .same rfl rfl rfl rfl rfl rfl

/-- A group start takes its members and then judges the group (R105, R107). -/
theorem groupStart_cases (p : Plant) (source : StartSource) (hit : Zone → Bool) (z : Zone) :
    let t := p.membersTaken source hit
    let q := p.groupStart source hit
    t.Kept q ∧ (¬t.Standing z → q.unit z = t.unit z) ∧ (t.ctx z).Carries 3 (q.ctx z) := by
  intro t q
  let started := p.takenMembers.filter fun z => (t.ctx z).state == .starting
  let r := if p.startingSet.isEmpty then { t with groupTimeout := Timer.minutes p.kiln.startTimeout } else t
  have hq : q = if started.isEmpty then t else (started.foldl Plant.markReady r).judgeGroup := rfl
  have hr : t.Kept r ∧ ∀ y, r.unit y = t.unit y := by
    refine ⟨.ite (.groupTimeout _ _) (.refl t), fun y => ?_⟩
    change (if _ then _ else _ : Plant).unit y = _
    split <;> rfl
  have hm : r.Marked (started.foldl Plant.markReady r) started :=
    Plant.markReadys_marked _ (((by decide : Zone.order.Nodup).filter _).filter _) r
  rw [hq]
  split
  · exact ⟨.refl t, fun _ => rfl, .same rfl rfl rfl rfl rfl rfl⟩
  · obtain ⟨hstands, hcarries, hout⟩ := hm.ctx z
    obtain ⟨hstill, hjudged⟩ := (started.foldl Plant.markReady r).judgeGroup_cases z
    have hrctx : r.ctx z = t.ctx z := congrArg ZoneUnit.ctx (hr.2 z)
    have hstand : r.Standing z ↔ t.Standing z := by
      unfold Plant.Standing
      rw [hrctx, hr.1.work]
    refine ⟨(hr.1.trans hm.kept).trans (.judgeGroup _), fun hn => ?_, hrctx ▸ hcarries.trans hjudged⟩
    rw [hstill fun k => hn (hstand.1 (hstands.1 k)), hout fun k => hn ?_, hr.2 z]
    obtain ⟨hz, hs⟩ := List.mem_filter.1 k
    refine ⟨?_, beq_iff_eq.1 hs⟩
    rw [(p.membersTaken_taken source hit).kept.work]
    exact ((p.mem_takenMembers z).1 hz).1

/-! ### A start event -/

/-- In an event that found the plant as `p`, a zone that is no member starts, or fails its start (R78, R85). -/
def eventStart (p : Plant) (source : StartSource) (q : Plant) (z : Zone) : Plant :=
  match p.startObstacle z source with
  | some f => q.failStart z f
  | none => q.startAlone z source

theorem Kept.eventStart (p : Plant) (source : StartSource) (q : Plant) (z : Zone) : q.Kept (p.eventStart source q z) := by
  unfold Plant.eventStart
  split
  · exact .failStart q z _
  · exact .startAlone q z source

theorem Only.eventStart (p : Plant) (source : StartSource) (q : Plant) (z : Zone) (h : q.grouped z = false) :
    Plant.Only z q (p.eventStart source q z) := by
  unfold Plant.eventStart
  split
  · exact .failStart q z _
  · exact .startAlone q z source h

theorem eventStart_disabled (source : StartSource) (w : Plant) (z : Zone) (h : p.fieldEnabled = false) :
    p.eventStart source w z = (w.put z ((w.unit z).failed source .fieldDisabled none)).raise (.zone z .startFailed) := by
  have ho : p.startObstacle z source = some ⟨source, .fieldDisabled, none, none⟩ := by
    unfold Plant.startObstacle
    rw [h]
    rfl
  unfold Plant.eventStart
  rw [ho]
  rfl

theorem eventStart_finding {f : Finding} (source : StartSource) (w : Plant) (h : p.fieldEnabled = true)
    (hv : p.validate z = some f) :
    p.eventStart source w z =
      (w.put z ((w.unit z).failed source .badSchedule (some f))).raise (.zone z .startFailed) := by
  have ho : p.startObstacle z source = some ⟨source, .badSchedule, some f, none⟩ := by
    unfold Plant.startObstacle
    rw [h, if_neg (by simp), hv]
  unfold Plant.eventStart
  rw [ho]
  rfl

theorem evaluateStart_carries (hg : p.grouped z = false) : (p.ctx z).Carries 3 ((p.evaluateStart z).ctx z) := by
  have hm : (p.ctx z).Carries 0 ((p.markReady z).ctx z) := by
    rw [Plant.markReady, Plant.ctx_context_self]
    exact .same rfl rfl rfl rfl rfl rfl
  unfold Plant.evaluateStart
  dsimp only
  split
  · rw [hg, if_neg Bool.false_ne_true]
    split
    · exact hm.trans (enterFirstPhase_carries _ z)
    · exact hm.mono (Nat.zero_le _)
  · exact .same rfl rfl rfl rfl rfl rfl

/-- A zone that starts is in STARTING or beyond it, with the items of a new start (R79). -/
theorem eventStart_begun (source : StartSource) (w : Plant) (h : p.fieldEnabled = true) (hv : p.validate z = none)
    (hg : w.grouped z = false) : ((w.unit z).begun source).ctx.Carries 3 ((p.eventStart source w z).ctx z) := by
  have hs : p.eventStart source w z = w.startAlone z source := by
    have ho : p.startObstacle z source = none := by
      unfold Plant.startObstacle
      rw [h, if_neg (by simp), hv]
    unfold Plant.eventStart
    rw [ho]
  rw [hs, Plant.startAlone_eq]
  refine ZoneContext.Carries.trans (m := 0) ?_ (evaluateStart_carries (p := w.put z _) hg)
  rw [Plant.put_ctx_self]
  exact .same rfl rfl rfl rfl rfl rfl

/-- The zones that a start event starts on their own: no members (R78, R85). -/
def startsAlone (p : Plant) (hit : Zone → Bool) : List Zone := Zone.order.filter fun z => hit z && !p.grouped z

theorem mem_startsAlone (p : Plant) (hit : Zone → Bool) (z : Zone) :
    z ∈ p.startsAlone hit ↔ hit z = true ∧ p.grouped z = false := by
  simp [startsAlone, Zone.mem_order]

/-- The zones that a start event hits: IDLE, with its source in their start mask. -/
def hits (p : Plant) (inMask : StartMask → Bool) (z : Zone) : Bool := (p.ctx z).state == .idle && inMask (p.items z).startMask

/-- The plant with the zones started that start on their own. -/
def startedAlone (p : Plant) (source : StartSource) (hit : Zone → Bool) : Plant :=
  (p.startsAlone hit).foldl (p.eventStart source) p

theorem startEvent_eq (p : Plant) (source : StartSource) (inMask : StartMask → Bool) :
    p.startEvent source inMask =
      if (Zone.order.any fun z => p.hits inMask z && p.grouped z) = true then
        (p.startedAlone source (p.hits inMask)).groupStart source (p.hits inMask)
      else p.startedAlone source (p.hits inMask) := by
  unfold Plant.startEvent Plant.startedAlone Plant.eventStart
  rfl

/-- A start that is one zone's own changes that zone alone. -/
theorem startsAlone_only (p : Plant) (source : StartSource) (hit : Zone → Bool) :
    ∀ (x : Plant) y, p.Kept x → y ∈ p.startsAlone hit → Plant.Only y x (p.eventStart source x y) := fun x y hx hy => by
  refine .eventStart p source x y ?_
  rw [Plant.grouped, Plant.items, hx.work]
  exact ((p.mem_startsAlone hit y).1 hy).2

theorem Kept.startedAlone (p : Plant) (source : StartSource) (hit : Zone → Bool) : p.Kept (p.startedAlone source hit) :=
  .foldl _ (fun q z => .eventStart p source q z) _ p

theorem startedAlone_out (p : Plant) (source : StartSource) {hit : Zone → Bool} (h : z ∉ p.startsAlone hit) :
    (p.startedAlone source hit).unit z = p.unit z :=
  foldl_out (p := p) (fun x y => .eventStart p source x y) h p (.refl p) (p.startsAlone_only source hit)

theorem startedAlone_turn (p : Plant) (source : StartSource) {hit : Zone → Bool} (h : z ∈ p.startsAlone hit) :
    ∃ w : Plant, p.Kept w ∧ w.unit z = p.unit z ∧ (p.eventStart source w z).Kept (p.startedAlone source hit) ∧
      (p.startedAlone source hit).unit z = (p.eventStart source w z).unit z :=
  foldl_turn (p := p) (f := p.eventStart source) ((by decide : Zone.order.Nodup).filter _)
    (fun x y => .eventStart p source x y) h p (.refl p) (p.startsAlone_only source hit)

end Plant

end Sys2Proof.Machine
end

section
/-! SUPPORT. Proofs: what a start event does with each zone, and the statement on the delayed start (R78, R80, R85,
R105 to R107). -/

namespace Sys2Proof.Machine

namespace Plant

variable {p : Plant} {z : Zone}

theorem Standing.grouped (h : p.Standing z) : p.grouped z = true := h.1

theorem not_standing_of_idle (h : (p.ctx z).state = .idle) : ¬p.Standing z := fun k => by
  have hs : (p.ctx z).state = .starting := k.2
  rw [h] at hs
  cases hs

theorem Kept.grouped {q : Plant} (h : p.Kept q) (z : Zone) : q.grouped z = p.grouped z := by
  rw [Plant.grouped, Plant.grouped, Plant.items, Plant.items, h.work]

theorem Kept.validate {q : Plant} (h : p.Kept q) (z : Zone) : q.validate z = p.validate z := by
  unfold Plant.validate
  rw [h.work]

/-- For a zone that is no member, a start event is over once the zones that start on their own have done so. -/
theorem startEvent_alone (p : Plant) (source : StartSource) (inMask : StartMask → Bool) (hg : p.grouped z = false) :
    (p.startedAlone source (p.hits inMask)).Kept (p.startEvent source inMask) ∧
      (p.startEvent source inMask).unit z = (p.startedAlone source (p.hits inMask)).unit z := by
  rw [startEvent_eq]
  split
  · generalize hr : p.startedAlone source (p.hits inMask) = r
    have hgr : r.grouped z = false := by
      rw [← hr, (Kept.startedAlone p source _).grouped]
      exact hg
    have ht := r.membersTaken_taken source (p.hits inMask)
    obtain ⟨hkept, hstill, -⟩ := r.groupStart_cases source (p.hits inMask) z
    refine ⟨ht.kept.trans hkept, (hstill fun k => ?_).trans (ht.out z fun k => ?_)⟩
    · exact Bool.false_ne_true (hgr.symm.trans ((ht.kept.grouped z).symm.trans k.grouped))
    · exact Bool.false_ne_true (hgr.symm.trans ((r.mem_takenMembers z).1 k).1)
  · exact ⟨.refl _, rfl⟩

/-- For a member that the event hits, it is the group start of the plant that those zones leave, which has the member's own unit
as the event has found it. -/
theorem startEvent_member (p : Plant) (source : StartSource) {inMask : StartMask → Bool} (hg : p.grouped z = true)
    (hh : p.hits inMask z = true) :
    ∃ r : Plant, p.Kept r ∧ r.unit z = p.unit z ∧ p.startEvent source inMask = r.groupStart source (p.hits inMask) := by
  refine ⟨p.startedAlone source (p.hits inMask), .startedAlone p source _, startedAlone_out p source fun k => ?_, ?_⟩
  · exact Bool.false_ne_true (((p.mem_startsAlone _ z).1 k).2.symm.trans hg)
  · rw [startEvent_eq, if_pos (List.any_eq_true.2 ⟨z, Zone.mem_order z, by rw [hh, hg]; rfl⟩)]

/-- What a start event leaves of a zone that it hits and whose start fails. -/
def FailedIn (p q : Plant) (z : Zone) (source : StartSource) (cause : FailureCause) (finding : Option Finding) : Prop :=
  q.unit z = (p.unit z).failed source cause finding ∧ .zone z .startFailed ∈ q.alerts

/-- A zone whose start has failed on its own, or in a group start, stays so to the end of the event. -/
theorem FailedIn.groupStart {r : Plant} {source : StartSource} {hit : Zone → Bool} {cause : FailureCause}
    {finding : Option Finding} (hi : (r.ctx z).state = .idle) (h : r.FailedIn (r.membersTaken source hit) z source cause finding) :
    r.FailedIn (r.groupStart source hit) z source cause finding := by
  obtain ⟨hkept, hstill, -⟩ := r.groupStart_cases source hit z
  have hs : ((r.membersTaken source hit).ctx z).state = .idle :=
    (congrArg (fun u : ZoneUnit => u.ctx.state) h.1).trans hi
  exact ⟨(hstill (not_standing_of_idle hs)).trans h.1, hkept.alerts _ h.2⟩

theorem hits_iff (p : Plant) (inMask : StartMask → Bool) (z : Zone) :
    p.hits inMask z = true ↔ (p.ctx z).state = .idle ∧ inMask (p.items z).startMask = true := by
  simp [hits]

variable {source : StartSource} {inMask : StartMask → Bool}

theorem startEvent_other (source : StartSource) (hg : p.grouped z = false) (hh : p.hits inMask z = false) :
    (p.startEvent source inMask).unit z = p.unit z := by
  rw [(p.startEvent_alone source inMask hg).2]
  exact startedAlone_out p source fun k => Bool.false_ne_true (hh.symm.trans ((p.mem_startsAlone _ z).1 k).1)

/-- The start of a zone that is hit fails where it does: on its own, or as a member of the group start. -/
theorem startEvent_failed {cause : FailureCause} {finding : Option Finding} (hh : p.hits inMask z = true)
    (halone : ∀ w : Plant, p.eventStart source w z =
      (w.put z ((w.unit z).failed source cause finding)).raise (.zone z .startFailed))
    (htaken : ∀ r : Plant, p.Kept r → (r.ctx z).state = .idle → r.grouped z = true →
      (r.membersTaken source (p.hits inMask)).unit z = (r.unit z).failed source cause finding ∧
        ¬(r.fieldEnabled = true ∧ r.validate z = none)) :
    p.FailedIn (p.startEvent source inMask) z source cause finding := by
  cases hg : p.grouped z with
  | false =>
    obtain ⟨hkept, hunit⟩ := p.startEvent_alone source inMask hg
    obtain ⟨w, -, hwz, hwk, hwu⟩ := p.startedAlone_turn source ((p.mem_startsAlone _ z).2 ⟨hh, hg⟩)
    rw [halone w] at hwk hwu
    refine ⟨?_, hkept.alerts _ (hwk.alerts _ (mem_insertAlert.2 (.inl rfl)))⟩
    rw [hunit, hwu, Plant.raise_unit, Plant.put_unit_self, hwz]
  | true =>
    obtain ⟨r, hk, hrz, he⟩ := p.startEvent_member source hg hh
    have hi : (r.ctx z).state = .idle :=
      (congrArg (fun u : ZoneUnit => u.ctx.state) hrz).trans ((p.hits_iff inMask z).1 hh).1
    have hgr : r.grouped z = true := (hk.grouped z).trans hg
    obtain ⟨hu, hn⟩ := htaken r hk hi hgr
    have hf := FailedIn.groupStart (hit := p.hits inMask) hi ⟨hu, ((r.membersTaken_taken source _).alerts _).2
      (.inr ⟨z, (r.mem_takenMembers z).2 ⟨hgr, hi⟩, rfl, hn⟩)⟩
    rw [he]
    exact ⟨hrz ▸ hf.1, hf.2⟩

theorem startEvent_disabled (source : StartSource) (hh : p.hits inMask z = true) (hf : p.fieldEnabled = false) :
    p.FailedIn (p.startEvent source inMask) z source .fieldDisabled none :=
  startEvent_failed hh (fun w => eventStart_disabled source w z hf) fun r hk hi hg => by
    have hfr : r.fieldEnabled = false := hk.fieldEnabled.trans hf
    refine ⟨((r.membersTaken_taken source _).disabled z ((r.mem_takenMembers z).2 ⟨hg, hi⟩) hfr).trans ?_, fun k => ?_⟩
    · rw [if_pos hh]
    · exact Bool.false_ne_true (hfr.symm.trans k.1)

theorem startEvent_finding {f : Finding} (source : StartSource) (hh : p.hits inMask z = true) (hf : p.fieldEnabled = true)
    (hv : p.validate z = some f) : p.FailedIn (p.startEvent source inMask) z source .badSchedule (some f) :=
  startEvent_failed hh (fun w => eventStart_finding source w hf hv) fun r hk hi hg => by
    have hvr : r.validate z = some f := (hk.validate z).trans hv
    refine ⟨((r.membersTaken_taken source _).finding z ((r.mem_takenMembers z).2 ⟨hg, hi⟩) f
      (hk.fieldEnabled.trans hf) hvr).trans ?_, fun k => ?_⟩
    · rw [if_pos hh]
    · cases hvr.symm.trans k.2

/-- A zone that is hit and may start has begun, and has carried what a start sets through whatever it enters in the event. -/
theorem startEvent_begun (source : StartSource) (hh : p.hits inMask z = true) (hf : p.fieldEnabled = true)
    (hv : p.validate z = none) : ((p.unit z).begun source).ctx.Carries 3 ((p.startEvent source inMask).ctx z) := by
  cases hg : p.grouped z with
  | false =>
    obtain ⟨w, hw, hwz, -, hwu⟩ := p.startedAlone_turn source ((p.mem_startsAlone _ z).2 ⟨hh, hg⟩)
    have hc : (p.startEvent source inMask).ctx z = (p.eventStart source w z).ctx z :=
      congrArg ZoneUnit.ctx ((p.startEvent_alone source inMask hg).2.trans hwu)
    rw [hc, ← hwz]
    exact eventStart_begun source w hf hv ((hw.grouped z).trans hg)
  | true =>
    obtain ⟨r, hk, hrz, he⟩ := p.startEvent_member source hg hh
    have hi : (r.ctx z).state = .idle :=
      (congrArg (fun u : ZoneUnit => u.ctx.state) hrz).trans ((p.hits_iff inMask z).1 hh).1
    have ht := (r.membersTaken_taken source (p.hits inMask)).begun z
      ((r.mem_takenMembers z).2 ⟨(hk.grouped z).trans hg, hi⟩) (hk.fieldEnabled.trans hf) ((hk.validate z).trans hv)
    rw [if_pos hh, hrz] at ht
    have hc := (r.groupStart_cases source (p.hits inMask) z).2.2
    rw [he, ← congrArg ZoneUnit.ctx ht]
    exact hc

end Plant

/-! ### DS -/

/-- No level follows from the delayed start timer. -/
theorem settle_delayedStart {p : Plant} (h : p.Levelled) (t : Timer) :
    settle p { p with delayedStart := t } = { p with delayedStart := t } :=
  settle_of_same h rfl rfl rfl rfl rfl rfl rfl

theorem Timer.minutesLeft_minutes (m : Nat) : Timer.minutesLeft (some (m * 60000)) = some m := by
  show some ((m * 60000 + 59999) / 60000) = some m
  congr 1
  omega

theorem performDelayedStartMinutes_lawful {m : Nat} (p : Plant) (h : 1 ≤ m ∧ m ≤ 10080) :
    performDelayedStartMinutes m p = .performed { p with delayedStart := some (m * 60000) }
      { status := .ok, content := .delayLeft (some m) } := by
  refine (if_pos h).trans ?_
  rw [← Timer.minutesLeft_minutes m]
  rfl

theorem performDelayedStartMinutes_refused {m : Nat} (p : Plant) (h : m = 0 ∨ 10080 < m) :
    performDelayedStartMinutes m p = .refuse .badValue := if_neg (by omega)

/-- Settles O28: at the expiry a zone that is no member starts on its own and a hit member starts with the group; what the start
sets is carried through the entries that the event goes on to. -/
theorem delayedStartRule : Obligations.DelayedStartRule := by
  unfold Obligations.DelayedStartRule
  refine ⟨fun s env h hl => ⟨fun m hm => ?lawful, fun m hm => ?refused, ?cancel⟩, ?expiry⟩
  case lawful =>
    refine congrArg _ ((State.take_performed h env (performDelayedStartMinutes_lawful s.plant hm)).trans ?_)
    rw [settle_delayedStart hl]
  case refused => exact congrArg _ (State.take_refuse h env (performDelayedStartMinutes_refused s.plant hm))
  case cancel =>
    refine congrArg _ ((State.take_performed h env (f := performDelayedStartCancel) rfl).trans ?_)
    rw [settle_delayedStart hl]
    rfl
  case expiry =>
    intro s hr ht p timed grouped
    generalize hr0 : ({ p with delayedStart := none } : Plant) = r
    have hk := Plant.Kept.startEvent r .timer StartMask.timer
    have hit : ∀ z, r.hits StartMask.timer z = true ↔ timed z := fun z => by subst hr0; exact Plant.hits_iff _ _ z
    have hfield : r.fieldEnabled = p.fieldEnabled := by subst hr0; rfl
    have hval : ∀ z, r.validate z = p.validate z := fun z => by subst hr0; rfl
    have hunit : ∀ z, r.unit z = p.unit z := fun z => by subst hr0; rfl
    refine ⟨r.startEvent .timer StartMask.timer, ?_, ?_, ?_, r.startEvent_started _ _, fun z =>
      ⟨fun hn hg => ?other, fun h hf => ?disabled, fun f h hf hv => ?finding, fun h hf hv => ?begun⟩⟩
    · subst hr0
      exact congrArg _ (State.expiry_moved (t := fun p => p.delayedStart) hr ht Plant.delayedExpiry)
    · rw [hk.delayedStart, ← hr0]
    · have hs := hk.same
      subst hr0
      exact ⟨hs.straps, hs.work, hs.store, hs.cursor, hs.records, hs.frontEnd, hs.arbiter, hs.spot, hs.mux, rfl, hs.lapse,
        hs.fieldEnabled⟩
    case other =>
      rw [← hunit z]
      refine Plant.startEvent_other .timer ?_ (Bool.eq_false_iff.2 fun k => hn ((hit z).1 k))
      exact Bool.eq_false_iff.2 fun k => hg (by subst hr0; exact k)
    case disabled =>
      rw [← hunit z]
      exact Plant.startEvent_disabled .timer ((hit z).2 h) (hfield.trans hf)
    case finding =>
      rw [← hunit z]
      exact Plant.startEvent_finding .timer ((hit z).2 h) (hfield.trans hf) ((hval z).trans hv)
    case begun =>
      have hc := Plant.startEvent_begun .timer ((hit z).2 h) (hfield.trans hf) ((hval z).trans hv)
      exact ⟨hc.begun (show ZoneState.starting ≠ .idle from nofun), hc.source, hc.failure, hc.clock,
        hc.dropped (show 0 + 3 ≤ 48 by decide)⟩

end Sys2Proof.Machine
end

section
/-! SUPPORT. Proofs: the delivery of a debounced change, role by role, and the statement on it (R134, R148, R150). -/

namespace Sys2Proof.Machine

theorem Polarity.convert_eq (c : Polarity) (high : Bool) : c.convert high = (high == (c == .activeHigh)) := by
  cases c <;> cases high <;> rfl

namespace Plant

variable {p q : Plant}

/-! ### Lines as the parts read them -/

theorem anyLine_iff (p : Plant) (f : LineConfig → Bool) :
    p.anyLine f = true ↔ ∃ j, f (p.lineItems j) = true ∧ (p.lines.get j).debounced = true := by
  simp [anyLine]

/-- What the parts read of the lines follows from the configuration and the debounced levels. -/
theorem anyLine_congr (f : LineConfig → Bool) (hw : q.work = p.work)
    (hd : ∀ j, (q.lines.get j).debounced = (p.lines.get j).debounced) : q.anyLine f = p.anyLine f := by
  unfold anyLine lineItems
  simp only [hw, hd]

/-- The plant with one line's items replaced. -/
def putLine (p : Plant) (i : Fin 16) (l : LineState) : Plant := { p with lines := p.lines.set i l }

theorem line_eq_putLine (p : Plant) (i : Fin 16) (f : LineState → LineState) :
    p.line i f = p.putLine i (f (p.lines.get i)) := rfl

@[simp] theorem putLine_get (p : Plant) (i : Fin 16) (l : LineState) : (p.putLine i l).lines.get i = l :=
  Table.get_set_self _ _ _

@[simp] theorem putLine_putLine (p : Plant) (i : Fin 16) (l m : LineState) : (p.putLine i l).putLine i m = p.putLine i m := by
  unfold putLine
  congr 1
  exact Table.ext_get fun j => by simp only [Table.get_set]; split <;> rfl

theorem putLine_anyLine (p : Plant) (i : Fin 16) {l : LineState} (h : l.debounced = (p.lines.get i).debounced)
    (f : LineConfig → Bool) : (p.putLine i l).anyLine f = p.anyLine f := by
  refine anyLine_congr f rfl fun j => ?_
  by_cases hj : i = j
  · subst hj
    rw [putLine_get, h]
  · unfold putLine
    rw [Table.get_set_ne _ _ hj]

/-! ### The delivery -/

/-- Line `i` has taken its new level. -/
def levelTaken (p : Plant) (i : Fin 16) (high level : Bool) : Plant :=
  p.putLine i { p.lines.get i with external := high, debounced := level, settled := true, timer := none }

/-- Line `i` has taken its new level, and a change of it is delivered. -/
def delivered (p : Plant) (i : Fin 16) (high level : Bool) : Plant :=
  let l := p.lines.get i
  if level = l.debounced then p.levelTaken i high level
  else p.deliver (p.levelTaken i high level) (p.lineItems i).role (p.lineItems i).zone (l.settled && level)

/-- A delivery reads the door condition and the hold lines alone of the plant before it. -/
theorem deliver_congr {before before' : Plant} (after : Plant) (role : LineRole) (zone : Zone) (pressed : Bool)
    (hd : before'.doorOpen = before.doorOpen) (hh : before'.holdIn = before.holdIn) :
    before'.deliver after role zone pressed = before.deliver after role zone pressed := by
  unfold deliver
  rw [hd, hh]

/-- The new level of a line that already shows the level applied from outside. -/
theorem takeLevel_putLine (p : Plant) (i : Fin 16) (high level : Bool) :
    (p.putLine i { p.lines.get i with external := high }).takeLevel i level = p.delivered i high level := by
  unfold takeLevel delivered levelTaken
  dsimp only
  rw [putLine_get, line_eq_putLine, putLine_get, putLine_putLine]
  have hb := putLine_anyLine p i (l := { p.lines.get i with external := high }) rfl
  rw [deliver_congr (before := p) _ _ _ _ (hb _) (hb _)]
  by_cases h : level = (p.lines.get i).debounced
  · rw [if_pos h, if_neg (by simp [h])]
  · rw [if_neg h, if_pos (by simpa using h)]
    rfl

theorem debounceExpiry_delivers {i : Fin 16} (ho : (p.lineItems i).role.isOutput = false)
    (ht : (p.lines.get i).timer.isSome = true) :
    p.debounceExpiry i =
      p.delivered i (p.lines.get i).external ((p.lineItems i).polarity.convert (p.lines.get i).external) := by
  have hn : (p.lines.get i).timer.isNone = false := by rw [← Option.not_isSome, ht]; rfl
  rw [← takeLevel_putLine]
  unfold debounceExpiry
  dsimp only
  rw [ho, hn, if_neg (by simp)]
  congr 1
  unfold putLine
  rw [Table.set_get_self]

theorem debounceExpiry_output {i : Fin 16} (ho : (p.lineItems i).role.isOutput = true) : p.debounceExpiry i = p := by
  unfold debounceExpiry
  dsimp only
  rw [ho, if_pos (Bool.true_or _)]

theorem pinChange_delivers {i : Fin 16} {high : Bool} (ho : (p.lineItems i).role.isOutput = false)
    (hs : (p.lines.get i).settled = true) (hx : high ≠ (p.lines.get i).external) (hd : (p.lineItems i).debounce = 0)
    (hl : (p.lineItems i).polarity.convert high ≠ (p.lines.get i).debounced) :
    p.pinChange i high = p.delivered i high ((p.lineItems i).polarity.convert high) := by
  have hn : ((p.lineItems i).role.isOutput || high == (p.lines.get i).external || !(p.lines.get i).settled) = false := by
    rw [ho, beq_eq_false_iff_ne.2 hx, hs]
    rfl
  rw [← takeLevel_putLine]
  unfold pinChange
  dsimp only
  rw [hn, if_neg Bool.false_ne_true, if_neg hl, if_pos hd]
  rfl

/-! ### Each role -/

theorem deliver_none {after : Plant} {role : LineRole} {zone : Zone} {pressed : Bool} (h : role = .none ∨ role = .generalIn) :
    p.deliver after role zone pressed = after := by
  rcases h with rfl | rfl <;> rfl

theorem deliverDoor_judged (p : Plant) :
    ∃ r : Plant,
      Plant.Chain (fun z x x' => x.Caused x' z { (x.unit z).causes with door := p.doorOpen }) everyZone p r ∧
        r.StartsJudged p.deliverDoor :=
  ⟨_, Plant.chain_foldl _ (fun z x => x.changeCauses_caused z fun c => { c with door := p.doorOpen }) _ p,
    Plant.eachStart_judged _⟩

theorem holdInActivation_gained (p : Plant) :
    Plant.Chain (fun z x x' => x.HoldGained x' z { host := (x.ctx z).holds.host, line := true }) everyZone p
      p.holdInActivation :=
  Plant.chain_foldl (fun x z => x.joinHold z fun h => { h with line := true })
    (fun z x => x.joinHold_gained z (fun h => { h with line := true }) (Bool.or_true _)) _ p

theorem holdInRelease_left (p : Plant) :
    ∃ r : Plant,
      Plant.Chain
        (fun z x x' =>
          ((x.ctx z).holds.line = false → x' = x) ∧
          ((x.ctx z).holds.line = true → x.HoldLeft x' z { host := (x.ctx z).holds.host, line := false }))
        everyZone p r ∧
      r.Released p.holdInRelease := by
  refine ⟨_, Plant.chain_foldl _ (fun z x => ⟨fun h => ?_, fun h => ?_⟩) _ p, Plant.judgeRelease_released _⟩
  · exact if_neg fun k => Bool.false_ne_true (h.symm.trans k)
  · rw [if_pos h]
    exact x.leaveHold_left z fun h => { h with line := false }

/-! ### What a delivery leaves -/

theorem delivered_same {i : Fin 16} {high level : Bool} (h : level = (p.lines.get i).debounced) :
    p.delivered i high level = p.levelTaken i high level := if_pos h

theorem delivered_new {i : Fin 16} {role : LineRole} {high level : Bool} (hr : (p.lineItems i).role = role)
    (h : level ≠ (p.lines.get i).debounced) :
    p.delivered i high level =
      p.deliver (p.levelTaken i high level) role (p.lineItems i).zone ((p.lines.get i).settled && level) :=
  hr ▸ if_neg h

theorem levelTaken_kept (p : Plant) (i : Fin 16) (high level : Bool) :
    (p.levelTaken i high level).Kept (p.delivered i high level) := by
  unfold delivered
  exact .ite (.refl _) (.deliver _ _ _ _ _)

/-- Where a condition on the lines has changed, the debounced level has. -/
theorem delivered_of_anyLine {i : Fin 16} {high level : Bool} {f : LineConfig → Bool}
    (h : p.anyLine f ≠ (p.levelTaken i high level).anyLine f) : level ≠ (p.lines.get i).debounced := fun k =>
  h (putLine_anyLine p i k f).symm

/-- Without a change that its role delivers, the line's items alone change. -/
theorem delivered_quiet {i : Fin 16} {role : LineRole} {high level : Bool} (hr : (p.lineItems i).role = role)
    (h : level ≠ (p.lines.get i).debounced →
      p.deliver (p.levelTaken i high level) role (p.lineItems i).zone ((p.lines.get i).settled && level) =
        p.levelTaken i high level) : p.delivered i high level = p.levelTaken i high level := by
  by_cases hd : level = (p.lines.get i).debounced
  · exact delivered_same hd
  · rw [delivered_new hr hd, h hd]

end Plant

/-- Settles O41: at either event the new level is taken and its change delivered, and each role's delivery is a chain over the
zones. -/
theorem lineDeliveryRule : Obligations.LineDeliveryRule := by
  unfold Obligations.LineDeliveryRule
  refine ⟨fun p => ⟨?door, ?hold, fun z => ?proof⟩, ?delivery⟩
  case door => exact (p.anyLine_iff _).trans (by simp [Plant.lineItems])
  case hold => exact (p.anyLine_iff _).trans (by simp [Plant.lineItems])
  case proof => exact (p.anyLine_iff _).trans (by simp [Plant.lineItems, and_right_comm])
  case delivery =>
    intro s i event high hr p c l level output hevent after
    have hconv : c.polarity.convert high = level := c.polarity.convert_eq high
    have hout : c.role.isOutput = true ↔ output := LineRole.isOutput_iff c.role
    have hkept : after.Kept (p.delivered i high level) := p.levelTaken_kept i high level
    refine ⟨p.delivered i high level, fun ho => ?outputs, fun ho => ⟨?inputs, ?same, hkept.lines, Plant.delivered_same⟩,
      fun hrole => ?silent, fun hrole => ⟨fun h => ?doorStays, fun h => ?doorChanges⟩,
      fun hrole h => ⟨fun hs => ?proofOut, fun hs => ?proofIn⟩,
      fun hrole => ⟨fun h => ?holdStays, fun h h' => ?holdRises, fun h h' => ?holdFalls⟩,
      fun hrole => ⟨fun h => ?buttonQuiet, fun h h' hs => ?buttonPressed⟩⟩
    case outputs =>
      rcases hevent with ⟨rfl, -, -⟩ | ⟨-, -, -, -, -, hn⟩
      · refine congrArg _ ((State.event_moved hr fun p => p.debounceExpiry i).trans ?_)
        rw [Plant.debounceExpiry_output (hout.2 ho)]
      · exact absurd ho hn
    case inputs =>
      have hin : (p.lineItems i).role.isOutput = false := Bool.eq_false_iff.2 fun k => ho (hout.1 k)
      rcases hevent with ⟨rfl, ht, hx⟩ | ⟨rfl, hs, hx, hd, hl, -⟩
      · refine congrArg _ ((State.event_moved hr fun p => p.debounceExpiry i).trans ?_)
        rw [Plant.debounceExpiry_delivers hin ht, ← hx]
        exact congrArg (fun b => s.moved (p.delivered i high b)) hconv
      · refine congrArg _ ((if_pos hr).trans ((State.event_moved hr fun p => p.pinChange i high).trans ?_))
        rw [Plant.pinChange_delivers hin hs hx hd (by rw [← hconv] at hl; exact hl)]
        exact congrArg (fun b => s.moved (p.delivered i high b)) hconv
    case same =>
      have hs := hkept.same
      exact ⟨hs.straps, hs.work, hs.store, hs.cursor, hs.records, hs.frontEnd, hs.arbiter, hs.spot, hs.mux, hs.delayedStart,
        hs.lapse, hs.fieldEnabled⟩
    case silent => exact Plant.delivered_quiet rfl fun _ => Plant.deliver_none hrole
    case doorStays =>
      refine Plant.delivered_quiet hrole fun _ => ?_
      exact if_neg (by rw [bne_iff_ne]; exact not_not_intro h)
    case doorChanges =>
      rw [Plant.delivered_new hrole (Plant.delivered_of_anyLine h)]
      obtain ⟨r, hr, hq⟩ := after.deliverDoor_judged
      have hd : p.deliver after .door c.zone (l.settled && level) = after.deliverDoor := if_pos (bne_iff_ne.2 h)
      exact ⟨r, hr, hd ▸ hq⟩
    case proofOut =>
      rw [Plant.delivered_new hrole h]
      exact if_neg hs
    case proofIn =>
      rw [Plant.delivered_new hrole h]
      exact after.evaluateStart_judged c.zone hs
    case holdStays =>
      refine Plant.delivered_quiet hrole fun _ => ?_
      change p.holdIn = (p.levelTaken i high level).holdIn at h
      unfold Plant.deliver
      dsimp only
      rw [h]
      cases (p.levelTaken i high level).holdIn <;> rfl
    case holdRises =>
      have hne : p.holdIn ≠ after.holdIn := by rw [h, h']; exact Bool.false_ne_true
      rw [Plant.delivered_new hrole (Plant.delivered_of_anyLine hne)]
      change (p.levelTaken i high level).holdIn = true at h'
      unfold Plant.deliver
      dsimp only
      rw [h, h']
      exact after.holdInActivation_gained
    case holdFalls =>
      have hne : p.holdIn ≠ after.holdIn := by rw [h, h']; exact Bool.false_ne_true.symm
      rw [Plant.delivered_new hrole (Plant.delivered_of_anyLine hne)]
      change (p.levelTaken i high level).holdIn = false at h'
      unfold Plant.deliver
      dsimp only
      rw [h, h']
      exact after.holdInRelease_left
    case buttonQuiet =>
      refine Plant.delivered_quiet hrole fun hd => ?_
      refine if_neg fun k => h ?_
      obtain ⟨hs, hl⟩ := Bool.and_eq_true_iff.1 k
      exact ⟨hl, Bool.eq_false_iff.2 fun hb => hd (hl.trans hb.symm), hs⟩
    case buttonPressed =>
      have hd : level ≠ (p.lines.get i).debounced := fun k => Bool.false_ne_true (h'.symm.trans (k.symm.trans h))
      rw [Plant.delivered_new hrole hd]
      have hq : p.deliver after .startButton c.zone (l.settled && level) = after.startEvent .line StartMask.line :=
        if_pos (Bool.and_eq_true_iff.2 ⟨hs, h⟩)
      exact hq ▸ after.startEvent_started .line StartMask.line

end Sys2Proof.Machine
end

section
/-! SUPPORT. Proofs: what a new KILN item does to each zone, and the statement on it (R117, R120, R124, R176). -/

namespace Sys2Proof.Machine

/-! ### The item -/

theorem clampedInt_kept {lo hi : Int} (h : lo ≤ hi) (x : Int) : (clampedInt lo hi x).2 = false ↔ lo ≤ x ∧ x ≤ hi := by
  simp only [clampedInt, clampInt, bne_eq_false_iff_eq]
  omega

theorem clampedNat_kept {lo hi : Nat} (h : lo ≤ hi) (x : Nat) : (clampedNat lo hi x).2 = false ↔ lo ≤ x ∧ x ≤ hi := by
  simp only [clampedNat, clampNat, bne_eq_false_iff_eq]
  omega

/-- CW KILN passes check 1 where its two enumerated fields are defined; its numeric fields are clamped (R176). -/
theorem kilnOf_defined {r : RawKiln} (h : r.Defined) : ∃ b, kilnOf r = some (r.item, b) ∧ (b = false ↔ r.InRange) := by
  obtain ⟨hv, hf⟩ := h
  have hvent : safeVentOf r.safeVent = some r.item.safeVent := by
    unfold RawKiln.item
    rcases (by omega : r.safeVent = 0 ∨ r.safeVent = 1) with h | h <;> rw [h] <;> rfl
  have hfan : safeFanOf r.safeFan = some r.item.safeFan := by
    unfold RawKiln.item
    rcases (by omega : r.safeFan = 0 ∨ r.safeFan = 1) with h | h <;> rw [h] <;> rfl
  unfold kilnOf
  rw [hvent, hfan]
  refine ⟨_, rfl, ?_⟩
  simp only [Bool.or_eq_false_iff, clampedInt_kept (show (400 : Int) ≤ 1200 by decide),
    clampedInt_kept (show (10 : Int) ≤ 100 by decide), clampedNat_kept (show 1 ≤ 120 by decide),
    clampedNat_kept (show 1 ≤ 60 by decide), RawKiln.InRange, and_assoc]

theorem kilnOf_undefined {r : RawKiln} (h : ¬r.Defined) : kilnOf r = none := by
  have hn : safeVentOf r.safeVent = none ∨ safeFanOf r.safeFan = none := by
    rcases not_and_or.1 h with h | h
    · refine .inl ?_
      match r.safeVent, h with
      | n + 2, _ => rfl
    · refine .inr ?_
      match r.safeFan, h with
      | n + 2, _ => rfl
  unfold kilnOf
  rcases hn with hn | hn
  · rw [hn]
  · rw [hn]
    cases safeVentOf r.safeVent <;> rfl

end Sys2Proof.Machine
end

section
/-! SUPPORT. Proofs: a zone's turn under a new maximum and a new safe fan setting, and the statement on CW KILN (R117, R120,
R124). -/

namespace Sys2Proof.Machine

/-! ### The climate of a zone under a new maximum -/

/-- The climate with its present setpoints formed anew (R117, step 1). -/
def ZoneUnit.reformed (u : ZoneUnit) (m : Int) : ClimateState :=
  match u.climate.dbSetpoint, u.ctx.activeCopy with
  | some _, some x => u.climate.steered x m
  | _, _ => u.climate

/-- The climate with its targets clamped too (R117, step 2). -/
def ZoneUnit.capped (u : ZoneUnit) (m : Int) : ClimateState :=
  { u.reformed m with
    dbTarget := min u.climate.dbTarget (60 * m)
    wbTarget := min u.climate.wbTarget (min u.climate.dbTarget (60 * m)) }

/-- The alert of setpoints that the maximum cuts (R116). -/
def ZoneUnit.cutAlert (u : ZoneUnit) (m : Int) (z : Zone) : Option Alert :=
  match u.climate.dbSetpoint, u.ctx.activeCopy with
  | some _, some x => if m < x.db then some (.zone z .targetClamped) else none
  | _, _ => none

theorem ZoneUnit.cutAlert_iff (u : ZoneUnit) (m : Int) (z : Zone) (a : Alert) :
    u.cutAlert m z = some a ↔
      ∃ x, a = .zone z .targetClamped ∧ u.climate.dbSetpoint.isSome = true ∧ u.ctx.activeCopy = some x ∧ m < x.db := by
  unfold ZoneUnit.cutAlert
  cases u.climate.dbSetpoint <;> cases u.ctx.activeCopy <;> simp [eq_comm, and_comm]

/-- The climate with its ramp judged again where the zone is in a phase state (R117, step 3). -/
def ZoneUnit.limited (u : ZoneUnit) (m : Int) : ClimateState :=
  if u.ctx.state.inPhase = true then (u.capped m).rejudge u.ramping else u.capped m

/-- The zone with that climate. -/
def ZoneUnit.limit (u : ZoneUnit) (m : Int) : ZoneUnit := { u with climate := u.limited m }

/-- A ramp in flight that is completed, or is in flight still (R117). -/
theorem ClimateState.rejudge_away (c : ClimateState) :
    (c.Away → c.rejudge true = c) ∧ (¬c.Away → c.rejudge true = { c with rampTimer := none }) := by
  refine ⟨fun h => ?_, fun h => ?_⟩
  · unfold ClimateState.rejudge
    rw [c.offTarget_iff.2 h]
  · unfold ClimateState.rejudge
    rw [Bool.eq_false_iff.2 fun k => h (c.offTarget_iff.1 k)]

/-- A ramp that was not in flight starts where a target is away from its new setpoint (R117). -/
theorem ClimateState.rejudge_there (c : ClimateState) :
    (¬c.Away → c.rejudge false = c) ∧
      ∀ d w, c.dbSetpoint = some d → c.wbSetpoint = some w → c.Away → c.rejudge false = c.started d w := by
  refine ⟨fun h => ?_, fun d w hd hw h => ?_⟩
  · unfold ClimateState.rejudge
    rw [Bool.eq_false_iff.2 fun k => h (c.offTarget_iff.1 k)]
  · unfold ClimateState.rejudge
    rw [c.offTarget_iff.2 h]
    exact c.ramp_eq d w hd hw

theorem ZoneUnit.limited_away {u : ZoneUnit} (m : Int) (hin : u.ctx.state.inPhase = true) (ha : u.climate.Away) :
    u.limited m = (u.capped m).rejudge true := by
  unfold ZoneUnit.limited
  rw [if_pos hin, u.ramping_iff.2 ⟨hin, ha⟩]

theorem ZoneUnit.limited_there {u : ZoneUnit} (m : Int) (hin : u.ctx.state.inPhase = true) (ha : ¬u.climate.Away) :
    u.limited m = (u.capped m).rejudge false := by
  unfold ZoneUnit.limited
  rw [if_pos hin, Bool.eq_false_iff.2 fun k => ha (u.ramping_iff.1 k).2]

/-- Whether a ramp in flight still is under the new maximum. -/
theorem ZoneUnit.limit_ramping {u : ZoneUnit} (m : Int) (hin : u.ctx.state.inPhase = true) (ha : u.climate.Away) :
    (u.limit m).ramping = true ↔ (u.capped m).Away := by
  have hc : (u.limited m).Away ↔ (u.capped m).Away := by
    rw [ZoneUnit.limited_away m hin ha]
    by_cases h : (u.capped m).Away
    · rw [(u.capped m).rejudge_away.1 h]
    · rw [(u.capped m).rejudge_away.2 h]
      rfl
  exact (u.limit m).ramping_iff.trans ((and_iff_right hin).trans hc)

/-! ### The turn of a zone under a new maximum -/

/-- The new maximum completes the ramp of a hold-pending zone, which enters HELD (R91, R120). -/
def ZoneUnit.limitStops (u : ZoneUnit) (m : Int) : Bool := u.ramping && !(u.limit m).ramping && u.ctx.holdPending

theorem ZoneUnit.limitStops_iff (u : ZoneUnit) (m : Int) :
    u.limitStops m = true ↔
      u.ctx.state.inPhase = true ∧ u.ctx.holdPending = true ∧ u.climate.Away ∧ ¬(u.capped m).Away := by
  have hn : u.limitStops m = true ↔ (u.ramping = true ∧ ¬(u.limit m).ramping = true) ∧ u.ctx.holdPending = true := by
    simp [ZoneUnit.limitStops]
  rw [hn, u.ramping_iff]
  constructor
  · rintro ⟨⟨⟨hin, ha⟩, hr⟩, hp⟩
    exact ⟨hin, hp, ha, fun k => hr ((ZoneUnit.limit_ramping m hin ha).2 k)⟩
  · rintro ⟨hin, hp, ha, hc⟩
    exact ⟨⟨⟨hin, ha⟩, fun k => hc ((ZoneUnit.limit_ramping m hin ha).1 k)⟩, hp⟩

/-- What a zone in a phase state becomes where its ramp is completed. -/
def ZoneUnit.heldHere (u : ZoneUnit) : ZoneUnit :=
  match u.ctx.state with
  | .phase ph => u.heldOver ph
  | _ => u

/-- The turn of a zone that takes a new maximum. -/
def ZoneUnit.limitTurn (u : ZoneUnit) (m : Int) (z : Zone) : Turn where
  alert := u.cutAlert m z
  unit := if u.limitStops m = true then (u.limit m).heldHere else u.limit m
  stops := u.limitStops m

/-- The setpoints formed anew, with their alert (R117, step 1). -/
theorem Plant.reform_eq (p : Plant) (z : Zone) :
    p.reform z = (p.alert ((p.unit z).cutAlert p.kiln.maximumDb z)).put z
      { p.unit z with climate := (p.unit z).reformed p.kiln.maximumDb } := by
  unfold Plant.reform ZoneUnit.cutAlert ZoneUnit.reformed
  cases hd : (p.unit z).climate.dbSetpoint with
  | none => exact (p.put_unit z).symm
  | some d =>
    cases hx : (p.ctx z).activeCopy with
    | none =>
      rw [show (p.unit z).ctx.activeCopy = none from hx]
      exact (p.put_unit z).symm
    | some x =>
      rw [show (p.unit z).ctx.activeCopy = some x from hx]
      dsimp only
      rw [Plant.formSetpoints_eq, Plant.raiseIf]
      by_cases h : p.kiln.maximumDb < x.db
      · rw [if_pos (decide_eq_true h), if_pos h]
        rfl
      · rw [if_neg (by simpa using h), if_neg h]
        rfl

/-- The setpoints formed anew do not move the targets. -/
theorem ZoneUnit.capped_eq (u : ZoneUnit) (m : Int) : (u.reformed m).clampTo m = u.capped m := by
  unfold ZoneUnit.capped ZoneUnit.reformed ClimateState.clampTo
  cases u.climate.dbSetpoint <;> cases u.ctx.activeCopy <;> rfl

theorem Plant.takeMaximum_eq (p : Plant) (z : Zone) :
    p.takeMaximum z = p.turn z ((p.unit z).limitTurn p.kiln.maximumDb z) := by
  generalize hm : p.kiln.maximumDb = m
  let u := p.unit z
  let base := p.alert (u.cutAlert m z)
  have hr : p.takeMaximum z = p.reportRamp (base.put z (u.limit m)) z := by
    have hq : (p.reform z).climate z (fun c => c.clampTo m) = base.put z { u with climate := u.capped m } := by
      rw [p.reform_eq, hm, Plant.climate, Plant.zone_eq_put, Plant.put_unit_self, Plant.put_put, ← u.capped_eq m]
    unfold Plant.takeMaximum ZoneUnit.limit ZoneUnit.limited
    rw [hm, hq]
    refine congrArg (p.reportRamp · z) ?_
    by_cases hin : u.ctx.state.inPhase = true
    · rw [if_pos hin]
      refine (if_pos hin).trans ?_
      rw [Plant.climate, Plant.zone_eq_put, Plant.put_unit_self, Plant.put_put]
    · rw [if_neg hin]
      exact if_neg hin
  rw [hr]
  unfold Plant.turn ZoneUnit.limitTurn
  dsimp only
  cases hs : u.limitStops m with
  | true =>
    obtain ⟨hin, hp, ha, hc⟩ := (u.limitStops_iff m).1 hs
    have hn := fun k => hc ((ZoneUnit.limit_ramping m hin ha).1 k)
    cases hst : u.ctx.state with
    | phase ph =>
      have hh : (u.limit m).heldHere = (u.limit m).heldOver ph := by
        unfold ZoneUnit.heldHere
        rw [show (u.limit m).ctx.state = .phase ph from hst]
      rw [if_pos rfl, hh, Plant.reportRamp_held (u.ramping_iff.2 ⟨hin, ha⟩) (by rw [Plant.put_unit_self]; exact hn)
        (by rw [Plant.put_ctx_self]; exact hin) (by rw [Plant.put_ctx_self]; exact hp),
        Plant.enterHeld_eq _ z ph (by rw [Plant.put_ctx_self]; exact hst), Plant.put_unit_self, Plant.put_put]
      rfl
    | _ => rw [hst] at hin; cases hin
  | false =>
    rw [if_neg Bool.false_ne_true]
    by_cases hp : u.ctx.holdPending = true
    · refine Plant.reportRamp_stays ?_
      rw [Plant.put_unit_self]
      by_contra k
      obtain ⟨k1, k2⟩ := not_or.1 k
      have : u.limitStops m = true := by
        unfold ZoneUnit.limitStops
        rw [not_not.1 k1, Bool.eq_false_iff.2 k2, hp]
        rfl
      exact Bool.false_ne_true (hs.symm.trans this)
    · exact Plant.reportRamp_unheld (by rw [Plant.put_ctx_self]; exact Bool.eq_false_iff.2 hp)

/-! ### All zones under the new item -/

theorem Plant.Rest.kiln {p q : Plant} (h : p.Rest q) : q.kiln = p.kiln := by
  obtain ⟨_, _, _, rfl⟩ := h
  rfl

/-- An event that leaves every zone as it is gives each an idle turn. -/
theorem Plant.Turned.idle (p : Plant) (zs : List Zone) : p.Turned p zs fun z => ⟨none, p.unit z, false⟩ where
  rest := .refl p
  out _ _ := rfl
  turned _ _ := rfl
  alerts a := by simp
  quiet _ := rfl
  queue := by
    induction zs with
    | nil => rfl
    | cons z zs ih => exact ih

/-- The turn of a zone under the item as it stands, where the maximum was `old`. -/
def Plant.maximumTurn (p : Plant) (old : Int) (z : Zone) : Turn :=
  if old ≠ p.kiln.maximumDb then (p.unit z).limitTurn p.kiln.maximumDb z else ⟨none, p.unit z, false⟩

/-- Every zone has taken a changed maximum. -/
def Plant.maximumTaken (p : Plant) (old : Int) : Plant :=
  if old ≠ p.kiln.maximumDb then p.eachZone Plant.takeMaximum else p

theorem Plant.maximumTaken_turned (p : Plant) (old : Int) :
    p.Turned (p.maximumTaken old) everyZone (p.maximumTurn old) := by
  unfold Plant.maximumTaken Plant.maximumTurn
  split
  · refine Plant.foldl_turned _ (by decide) p fun x z _ hr hu => ?_
    rw [Plant.takeMaximum_eq, hu, hr.kiln]
  · exact .idle p _

/-- The fan of a zone under the setting `new`, where it was `old`: a change acts in SAFE alone (R124). -/
def ZoneUnit.fanUnder (u : ZoneUnit) (old new : SafeFan) : FanState :=
  if old ≠ new ∧ u.ctx.state = .safe then u.output.fan.resetSafe new else u.output.fan

/-- The zone with that fan. -/
def ZoneUnit.refanned (u : ZoneUnit) (old new : SafeFan) : ZoneUnit :=
  { u with output := { u.output with fan := u.fanUnder old new } }

/-- Every zone has taken a changed safe fan setting. -/
def Plant.safeFanTaken (p : Plant) (old : SafeFan) : Plant :=
  if old ≠ p.kiln.safeFan then p.eachZone Plant.takeSafeFan else p

theorem Plant.takeSafeFan_eq (p : Plant) {old : SafeFan} (h : old ≠ p.kiln.safeFan) (z : Zone) :
    p.takeSafeFan z = p.turn z ⟨none, (p.unit z).refanned old p.kiln.safeFan, false⟩ := by
  unfold Plant.takeSafeFan ZoneUnit.refanned ZoneUnit.fanUnder
  by_cases hs : (p.ctx z).state = .safe
  · rw [if_pos hs, if_pos ⟨h, hs⟩]
    rfl
  · rw [if_neg hs, if_neg fun k => hs k.2]
    exact (p.put_unit z).symm

theorem Plant.safeFanTaken_turned (p : Plant) (old : SafeFan) :
    p.Turned (p.safeFanTaken old) everyZone fun z => ⟨none, (p.unit z).refanned old p.kiln.safeFan, false⟩ := by
  unfold Plant.safeFanTaken
  split
  · next h =>
    refine Plant.foldl_turned _ (by decide) p fun x z _ hr hu => ?_
    rw [Plant.takeSafeFan_eq x (hr.kiln ▸ h), hu, hr.kiln]
  · next h =>
    have he : ∀ z, (p.unit z).refanned old p.kiln.safeFan = p.unit z := fun z => by
      unfold ZoneUnit.refanned ZoneUnit.fanUnder
      rw [if_neg fun k => h k.1]
    rw [funext fun z => congrArg (fun u => (⟨none, u, false⟩ : Turn)) (he z)]
    exact .idle p _

/-- A checkpoint is queued as the queue alone says. -/
theorem Plant.enqueue_checkpoint_queue {p q : Plant} (h : q.queue = p.queue) (z : Zone) (c : Checkpoint) :
    (q.enqueue (.checkpoint z c)).queue = (p.enqueue (.checkpoint z c)).queue := by
  unfold Plant.enqueue
  rw [h]
  split <;> rfl

/-- So are the checkpoints of the zones that the turns of an event stop. -/
theorem Plant.foldl_stops_queue {t : Zone → Turn} {c : Zone → Checkpoint} (zs : List Zone)
    (hc : ∀ z ∈ zs, (t z).stops = true → (t z).unit.checkpoint = c z) {p q : Plant} (h : q.queue = p.queue) :
    (zs.foldl (fun x z => x.turnQueue z (t z)) q).queue =
      (zs.foldl (fun x z => if (t z).stops = true then x.enqueue (.checkpoint z (c z)) else x) p).queue := by
  induction zs generalizing p q with
  | nil => exact h
  | cons z zs ih =>
    refine ih (fun y hy => hc y (List.mem_cons_of_mem z hy)) ?_
    unfold Plant.turnQueue
    dsimp only
    by_cases hs : (t z).stops = true
    · rw [if_pos hs, if_pos hs, hc z List.mem_cons_self hs]
      exact Plant.enqueue_checkpoint_queue h _ _
    · rw [if_neg hs, if_neg hs]
      exact h

/-- Turns that stop no zone queue nothing. -/
theorem Plant.Turned.unqueued {p q : Plant} {zs : List Zone} {t : Zone → Turn} (h : p.Turned q zs t)
    (hs : ∀ z, (t z).stops = false) : q.queue = p.queue := by
  rw [h.queue]
  clear h
  induction zs generalizing p with
  | nil => rfl
  | cons z zs ih =>
    rw [List.foldl_cons, ih, Plant.turnQueue, hs z]
    rfl

/-- The climate of a zone under the maximum `m`, where it was `old`. -/
def ZoneUnit.climateUnder (u : ZoneUnit) (old m : Int) : ClimateState := if old ≠ m then u.limited m else u.climate

/-- The turn of a zone under the new item, by whether it completes a ramp that a hold waits for. -/
theorem Plant.maximumTurn_cases (p : Plant) (old : Int) (z : Zone) :
    let u := p.unit z
    let v : ZoneUnit := { u with climate := u.climateUnder old p.kiln.maximumDb }
    let t := p.maximumTurn old z
    (t.stops = true ↔
      old ≠ p.kiln.maximumDb ∧ u.ctx.state.inPhase = true ∧ u.ctx.holdPending = true ∧ u.climate.Away ∧
        ¬(u.capped p.kiln.maximumDb).Away) ∧
    (t.stops = false → t.unit = v) ∧ ∀ ph, t.stops = true → u.ctx.state = .phase ph → t.unit = v.heldOver ph := by
  intro u v t
  by_cases h : old ≠ p.kiln.maximumDb
  · have ht : t = u.limitTurn p.kiln.maximumDb z := if_pos h
    have hv : v = u.limit p.kiln.maximumDb := by
      change ({ u with climate := u.climateUnder old p.kiln.maximumDb } : ZoneUnit) = _
      rw [ZoneUnit.climateUnder, if_pos h]
      rfl
    rw [ht, hv]
    refine ⟨(u.limitStops_iff _).trans (and_iff_right h).symm, fun hs => ?_, fun ph hs hp => ?_⟩
    · exact if_neg (Bool.eq_false_iff.1 hs)
    · refine (if_pos hs).trans ?_
      unfold ZoneUnit.heldHere
      rw [show (u.limit p.kiln.maximumDb).ctx.state = .phase ph from hp]
  · have ht : t = ⟨none, u, false⟩ := if_neg h
    have hv : v = u := by
      change ({ u with climate := u.climateUnder old p.kiln.maximumDb } : ZoneUnit) = _
      rw [ZoneUnit.climateUnder, if_neg h]
    rw [ht, hv]
    exact ⟨⟨nofun, fun k => absurd k.1 h⟩, fun _ => rfl, nofun⟩

/-! ### CW KILN -/

theorem performCwKiln_undefined (p : Plant) {r : RawKiln} (h : ¬r.Defined) : performCwKiln r p = .refuse .badValue := by
  unfold performCwKiln
  rw [kilnOf_undefined h]

theorem performCwKiln_defined (p : Plant) {r : RawKiln} (h : r.Defined) :
    ∃ status, performCwKiln r p =
        .performed ((p.writeKiln r.item).enqueue (.host .configuration)) { status := status, stores := true } ∧
      (status = .ok ∨ status = .clamped) ∧ (status = .ok ↔ r.InRange) := by
  obtain ⟨b, hk, hb⟩ := kilnOf_defined h
  refine ⟨writeStatus b, ?_, ?_, ?_⟩
  · unfold performCwKiln
    rw [hk]
    rfl
  · cases b
    · exact .inl rfl
    · exact .inr rfl
  · rw [← hb]
    cases b <;> simp [writeStatus]

/-- The plant with the item written. -/
def Plant.kilnSet (p : Plant) (k : KilnConfig) : Plant := p.configure fun c => { c with kiln := k }

/-- The plant with the item written and taken by every zone. -/
def Plant.kilnTaken (p : Plant) (k : KilnConfig) : Plant :=
  ((p.kilnSet k).maximumTaken p.kiln.maximumDb).safeFanTaken p.kiln.safeFan

/-- The turn of a zone under the new item. -/
def Plant.kilnTurn (p : Plant) (k : KilnConfig) : Zone → Turn := (p.kilnSet k).maximumTurn p.kiln.maximumDb

/-- What every zone's turn under the new item leaves. -/
structure Plant.KilnTaken (p q : Plant) (k : KilnConfig) : Prop where
  rest : (p.kilnSet k).Rest q
  unit : ∀ z, q.unit z = (p.kilnTurn k z).unit.refanned p.kiln.safeFan k.safeFan
  alerts : ∀ a, a ∈ q.alerts ↔ a ∈ p.alerts ∨ ∃ z, (p.kilnTurn k z).alert = some a
  quiet : (∀ z, (p.kilnTurn k z).alert = none) → q.alerts = p.alerts
  queue : q.queue = (everyZone.foldl (fun x z => x.turnQueue z (p.kilnTurn k z)) (p.kilnSet k)).queue

theorem Plant.kilnTaken_taken (p : Plant) (k : KilnConfig) : p.KilnTaken (p.kilnTaken k) k := by
  have hw : (p.kilnSet k).Turned _ everyZone (p.kilnTurn k) := (p.kilnSet k).maximumTaken_turned p.kiln.maximumDb
  unfold Plant.kilnTaken
  generalize (p.kilnSet k).maximumTaken p.kiln.maximumDb = w at hw ⊢
  have hq := w.safeFanTaken_turned p.kiln.safeFan
  rw [show w.kiln = k from hw.rest.kiln] at hq
  have hz : ∀ z, z ∈ everyZone := Zone.mem_order
  have halerts : (w.safeFanTaken p.kiln.safeFan).alerts = w.alerts := hq.quiet fun _ _ => rfl
  refine ⟨hw.rest.trans hq.rest, fun z => ?unit, fun a => ?alerts, fun hn => ?quiet, (hq.unqueued fun _ => rfl).trans hw.queue⟩
  case unit => rw [hq.turned z (hz z), hw.turned z (hz z)]
  case alerts =>
    rw [halerts, hw.alerts]
    exact or_congr_right (exists_congr fun z => and_iff_right (hz z))
  case quiet => exact halerts.trans (hw.quiet fun z _ => hn z)

/-- CW KILN takes the item in every zone before it evaluates the starting ones (log entry 32). -/
theorem Plant.writeKiln_eq (p : Plant) (k : KilnConfig) : p.writeKiln k = (p.kilnTaken k).eachZone Plant.evaluateStart := by
  have hk : ((p.kilnSet k).maximumTaken p.kiln.maximumDb).kiln = k :=
    ((p.kilnSet k).maximumTaken_turned p.kiln.maximumDb).rest.kiln
  unfold Plant.kilnTaken Plant.safeFanTaken
  rw [hk]
  rfl

/-- The alert of a zone's turn under the new item (R116, R117). -/
theorem Plant.kilnTurn_alert (p : Plant) (k : KilnConfig) (z : Zone) (a : Alert) :
    (p.kilnTurn k z).alert = some a ↔
      k.maximumDb ≠ p.kiln.maximumDb ∧
        ∃ x, a = .zone z .targetClamped ∧ (p.unit z).climate.dbSetpoint.isSome = true ∧
          (p.ctx z).activeCopy = some x ∧ k.maximumDb < x.db := by
  by_cases h : p.kiln.maximumDb ≠ k.maximumDb
  · have ht : p.kilnTurn k z = (p.unit z).limitTurn k.maximumDb z := if_pos h
    rw [ht, and_iff_right h.symm]
    exact (p.unit z).cutAlert_iff k.maximumDb z a
  · have ht : p.kilnTurn k z = ⟨none, p.unit z, false⟩ := if_neg h
    rw [ht]
    exact ⟨nofun, fun c => absurd c.1.symm h⟩

/-- The unit and the checkpoint of a zone's turn under the new item (R91, R117, R120). -/
theorem Plant.kilnTurn_unit (p : Plant) (k : KilnConfig) (z : Zone) :
    let u := p.unit z
    let v : ZoneUnit := { u with climate := u.climateUnder p.kiln.maximumDb k.maximumDb }
    let t := p.kilnTurn k z
    (t.stops = true ↔
      k.maximumDb ≠ p.kiln.maximumDb ∧ u.ctx.state.inPhase = true ∧ u.ctx.holdPending = true ∧ u.climate.Away ∧
        ¬(u.capped k.maximumDb).Away) ∧
    (t.stops = false → t.unit = v) ∧ ∀ ph, t.stops = true → u.ctx.state = .phase ph → t.unit = v.heldOver ph := by
  obtain ⟨hstops, hunit⟩ := (p.kilnSet k).maximumTurn_cases p.kiln.maximumDb z
  exact ⟨hstops.trans (and_congr_left' ne_comm), hunit⟩

/-- The safe fan setting changes nothing of a zone outside SAFE (R124). -/
theorem ZoneUnit.refanned_out {u : ZoneUnit} (old new : SafeFan) (h : u.ctx.state ≠ .safe) : u.refanned old new = u := by
  unfold ZoneUnit.refanned ZoneUnit.fanUnder
  rw [if_neg fun k => h k.2]

/-- The fan of a zone under a changed setting (R124). -/
theorem FanState.resetSafe_cases (f : FanState) (new : SafeFan) :
    (new = .stop → f.resetSafe new = { f with machine := .stopped, dwellTimer := none }) ∧
      (new = .run → f.machine = .stopped → f.resetSafe new = f.running) ∧
      (new = .run → f.machine ≠ .stopped → f.resetSafe new = f) := by
  refine ⟨?_, ?_, ?_⟩
  · rintro rfl
    rfl
  · rintro rfl h
    exact (if_pos h).trans f.start_eq
  · rintro rfl h
    exact if_neg h

/-- The climate of a zone under a changed maximum, by its ramp before and after (R117). -/
theorem ZoneUnit.limited_cases (u : ZoneUnit) (m : Int) :
    (u.ctx.state.inPhase = false → u.limited m = u.capped m) ∧
    (u.ctx.state.inPhase = true →
      (u.climate.Away → (u.capped m).Away → u.limited m = u.capped m) ∧
      (u.climate.Away → ¬(u.capped m).Away → u.limited m = { u.capped m with rampTimer := none }) ∧
      (¬u.climate.Away → ¬(u.capped m).Away → u.limited m = u.capped m) ∧
      (¬u.climate.Away → ∀ d w, (u.capped m).dbSetpoint = some d → (u.capped m).wbSetpoint = some w → (u.capped m).Away →
        u.limited m = (u.capped m).started d w)) := by
  refine ⟨fun hn => if_neg (Bool.eq_false_iff.1 hn), fun hin => ⟨fun ha hc => ?_, fun ha hc => ?_, fun ha hc => ?_,
    fun ha d w hd hw hc => ?_⟩⟩
  · rw [ZoneUnit.limited_away m hin ha, (u.capped m).rejudge_away.1 hc]
  · rw [ZoneUnit.limited_away m hin ha, (u.capped m).rejudge_away.2 hc]
  · rw [ZoneUnit.limited_there m hin ha, (u.capped m).rejudge_there.1 hc]
  · rw [ZoneUnit.limited_there m hin ha, (u.capped m).rejudge_there.2 d w hd hw hc]

/-- A zone that the event has stopped is in HELD, and stays as its turn has left it. -/
theorem Plant.KilnTaken.held {p q : Plant} {k : KilnConfig} (h : p.KilnTaken q k) {z : Zone}
    (hs : (p.kilnTurn k z).stops = true) : q.unit z = (p.kilnTurn k z).unit := by
  obtain ⟨hstops, -, hheld⟩ := p.kilnTurn_unit k z
  obtain ⟨-, hin, -⟩ := hstops.1 hs
  rw [h.unit z]
  cases hst : (p.unit z).ctx.state with
  | phase ph =>
    rw [hheld ph hs hst]
    exact ZoneUnit.refanned_out _ _ (show ZoneState.held ≠ .safe from nofun)
  | _ => rw [hst] at hin; cases hin

/-- Settles O17: the item is written, every zone has its turn under it, and the starting zones are evaluated. -/
theorem kilnWriteRule : Obligations.KilnWriteRule := by
  unfold Obligations.KilnWriteRule
  intro s env r h p limit clamped changed
  refine ⟨fun hn => congrArg _ (State.take_refuse h env (performCwKiln_undefined p hn)), fun hd => ?_⟩
  obtain ⟨status, hperf, hstatus, hrange⟩ := performCwKiln_defined p hd
  have ht := p.kilnTaken_taken r.item
  rw [p.writeKiln_eq] at hperf
  generalize p.kilnTaken r.item = q at hperf ht
  obtain ⟨hsame, hlines, hgroup⟩ := ht.rest.same
  refine ⟨q, q.eachZone Plant.evaluateStart, status, fun z => (p.kilnTurn r.item z).stops,
    congrArg _ (State.take_performed h env hperf), hstatus, hrange, q.eachStart_judged, hsame.work, hlines, hgroup,
    ⟨hsame.straps, rfl, hsame.store, hsame.cursor, hsame.records, hsame.frontEnd, hsame.arbiter, hsame.spot, hsame.mux,
      hsame.delayedStart, hsame.lapse, hsame.fieldEnabled⟩, ?queue, fun hc => ?quiet, fun hc a => ?alerts, fun z => ?zone⟩
  case queue =>
    exact ht.queue.trans (Plant.foldl_stops_queue everyZone
      (fun z _ hs => congrArg ZoneUnit.checkpoint (ht.held hs).symm) rfl)
  case quiet =>
    refine ht.quiet fun z => Option.eq_none_iff_forall_ne_some.2 fun a ha => ?_
    exact hc ((p.kilnTurn_alert r.item z a).1 ha).1
  case alerts =>
    rw [ht.alerts]
    refine or_congr_right (exists_congr fun z => ?_)
    rw [p.kilnTurn_alert, and_iff_right hc]
  case zone =>
    obtain ⟨hstops, hruns, hheld⟩ := p.kilnTurn_unit r.item z
    obtain ⟨hout, hin⟩ := (p.unit z).limited_cases r.item.maximumDb
    obtain ⟨hstop, hstart, hkeep⟩ := (p.unit z).output.fan.resetSafe_cases r.item.safeFan
    refine ⟨hstops, (p.unit z).climateUnder p.kiln.maximumDb r.item.maximumDb,
      (p.unit z).fanUnder p.kiln.safeFan r.item.safeFan, fun hs => ?runs, fun ph hs hp => ?held, fun hn => ?fanStays,
      fun hs hne => ?fanTurns, fun hc => ?climateStays, fun hc => ?climateTurns⟩
    case runs => rw [ht.unit z, hruns hs]; rfl
    case held =>
      have hfan : (p.unit z).fanUnder p.kiln.safeFan r.item.safeFan = (p.unit z).output.fan :=
        if_neg fun k => by rw [hp] at k; cases k.2
      rw [ht.held hs, hheld ph hs hp, hfan]
    case fanStays => exact if_neg fun k => hn.elim (fun h => h k.2) fun h => k.1 h.symm
    case fanTurns =>
      have hfan : (p.unit z).fanUnder p.kiln.safeFan r.item.safeFan = (p.unit z).output.fan.resetSafe r.item.safeFan :=
        if_pos ⟨Ne.symm hne, hs⟩
      rw [hfan]
      exact ⟨hstop, hstart, hkeep⟩
    case climateStays => exact if_neg fun k => hc k.symm
    case climateTurns =>
      have hlimited : (p.unit z).climateUnder p.kiln.maximumDb r.item.maximumDb = (p.unit z).limited r.item.maximumDb :=
        if_pos (Ne.symm hc)
      rw [hlimited]
      exact ⟨hout, hin⟩

end Sys2Proof.Machine
end

section
/-! SUPPORT. Proofs: the levels in closed form, the rows of R129, the lines and the proof timers, and the statement on the end of
an event (R126, R127, R129, R137, R147, R151, R179). -/

namespace Sys2Proof.Machine

/-! ### The rows of R129 -/

/-- An output is on where it is overridden ON, and where its entry is AUTO and it is on automatically (R127). -/
def OverrideEntry.Raises (e : OverrideEntry) (automatic : Prop) : Prop :=
  match e with
  | .on => True
  | .off => False
  | .auto => automatic

theorem OverrideEntry.over_iff (e : OverrideEntry) (level : Bool) : e.over level = true ↔ e.Raises (level = true) := by
  cases e <;> simp [OverrideEntry.over, OverrideEntry.Raises]

theorem ZoneUnit.inSafe_iff (u : ZoneUnit) : u.inSafe = true ↔ u.ctx.state = .safe := by simp [ZoneUnit.inSafe]

theorem ZoneUnit.heatLevel_iff (u : ZoneUnit) (field : Bool) :
    u.heatLevel field = true ↔
      ¬u.ctx.state = .safe ∧ field = true ∧ u.output.overrides.heat.Raises (u.output.heat.level = true) := by
  rw [← ZoneUnit.inSafe_iff, ← OverrideEntry.over_iff]
  unfold ZoneUnit.heatLevel
  cases u.inSafe <;> cases field <;> simp

theorem ZoneUnit.sprayLevel_iff (u : ZoneUnit) (field : Bool) :
    u.sprayLevel field = true ↔
      ¬u.ctx.state = .safe ∧ field = true ∧
        u.output.overrides.spray.Raises (u.output.overrides.vent ≠ .on ∧ u.output.spray.level = true) := by
  rw [← ZoneUnit.inSafe_iff]
  unfold ZoneUnit.sprayLevel
  by_cases hoff : (u.inSafe || !field) = true
  · rw [if_pos hoff]
    refine iff_of_false Bool.false_ne_true ?_
    rintro ⟨hn, hf, -⟩
    simp [hn, hf] at hoff
  · rw [if_neg hoff]
    simp only [Bool.or_eq_true, Bool.not_eq_true', not_or, Bool.not_eq_false] at hoff
    rw [and_iff_right hoff.1, and_iff_right hoff.2]
    cases he : u.output.overrides.spray with
    | auto => simp [OverrideEntry.Raises]
    | on => simp [OverrideEntry.over, OverrideEntry.Raises]
    | off => simp [OverrideEntry.over, OverrideEntry.Raises]

theorem ZoneUnit.ventLevel_iff (u : ZoneUnit) (field : Bool) (setting : SafeVent) :
    u.ventLevel field setting = true ↔
      field = true ∧
        u.output.overrides.vent.Raises
          ((u.ctx.state = .safe → setting = .open) ∧
            (¬u.ctx.state = .safe → u.output.overrides.spray ≠ .on ∧ u.output.vent.level = true)) := by
  rw [← ZoneUnit.inSafe_iff]
  unfold ZoneUnit.ventLevel
  cases field with
  | false => simp
  | true =>
    cases he : u.output.overrides.vent with
    | auto => cases hs : u.inSafe <;> simp [OverrideEntry.Raises]
    | on => simp [OverrideEntry.over, OverrideEntry.Raises]
    | off => simp [OverrideEntry.over, OverrideEntry.Raises]

theorem ZoneUnit.fanRunLevel_iff (u : ZoneUnit) (field : Bool) :
    u.fanRunLevel field = true ↔
      field = true ∧
        u.output.overrides.fanRun.Raises (u.output.fan.machine = .runFwd ∨ u.output.fan.machine = .runRev) := by
  rw [← FanMachine.runs_iff, ← OverrideEntry.over_iff]
  unfold ZoneUnit.fanRunLevel
  cases field <;> simp

theorem ZoneUnit.fanDirLevel_iff (u : ZoneUnit) (field : Bool) :
    u.fanDirLevel field = true ↔
      field = true ∧ u.output.overrides.fanDir.Raises (u.output.fan.direction = .reverse) := by
  have hd : u.output.fan.direction = .reverse ↔ (u.output.fan.direction == .reverse) = true := beq_iff_eq.symm
  rw [hd, ← OverrideEntry.over_iff]
  unfold ZoneUnit.fanDirLevel
  cases field <;> simp

/-! ### The lines (R147, R151) -/

theorem Plant.settledLine_output {p : Plant} {i : Fin 16} (h : (p.lineItems i).role.isOutput = true) :
    p.settledLine i =
      { p.lines.get i with
        pin := (p.lineItems i).polarity.convert (p.driveLevel i)
        debounced := p.driveLevel i
        settled := true
        timer := none } := if_pos h

theorem Plant.settledLine_input {p : Plant} {i : Fin 16} (h : ¬(p.lineItems i).role.isOutput = true) :
    p.settledLine i = { p.lines.get i with pin := (p.lines.get i).external } := if_neg h

theorem Polarity.convert_eq_ite (c : Polarity) (level : Bool) :
    c.convert level = if c = .activeHigh then level else !level := by cases c <;> rfl

theorem Plant.driveLevel_eq_ite (p : Plant) (i : Fin 16) :
    p.driveLevel i =
      if p.fieldEnabled = true ∨ (p.lineItems i).keep = true then (p.lines.get i).latch else (p.lineItems i).safeActive := by
  simp only [Plant.driveLevel, Bool.or_eq_true]

/-! ### The proof timers (R126, R137) -/

theorem FanMachine.dwells_iff (m : FanMachine) : m.dwells = true ↔ m = .dwellToRev ∨ m = .dwellToFwd := by
  cases m <;> simp [FanMachine.dwells]

theorem Plant.proof_iff (p : Plant) (z : Zone) :
    p.proof z = true ↔
      ∃ i, (p.lineItems i).role = .fanProof ∧ (p.lineItems i).zone = z ∧ (p.lines.get i).debounced = true := by
  unfold Plant.proof
  simp [Plant.anyLine_iff, and_assoc]

theorem Plant.shouldRun_iff (p : Plant) (z : Zone) :
    p.shouldRun z = true ↔
      p.fieldEnabled = true ∧
        (p.unit z).output.overrides.fanRun.Raises
          ((p.unit z).output.fan.machine = .runFwd ∨ (p.unit z).output.fan.machine = .runRev) ∧
        (p.unit z).output.fan.machine ≠ .dwellToRev ∧ (p.unit z).output.fan.machine ≠ .dwellToFwd ∧
        ¬∃ i, (p.lineItems i).role = .fanProof ∧ (p.lineItems i).zone = z ∧ (p.lines.get i).debounced = true := by
  unfold Plant.shouldRun
  rw [Bool.and_eq_true, Bool.and_eq_true, ZoneUnit.fanRunLevel_iff, Bool.not_eq_true', Bool.not_eq_true',
    ← Bool.not_eq_true, ← Bool.not_eq_true, FanMachine.dwells_iff, Plant.proof_iff, not_or]
  simp only [and_assoc]

/-- A zone whose proof timer is at the end of an event: started afresh, stopped, or left as it was. -/
def ZoneUnit.proofSettled (u : ZoneUnit) (before after : Bool) (delay : Nat) : ZoneUnit :=
  match before, after with
  | false, true => { u with proofOverdue := false, output := { u.output with proofTimer := some (delay * 1000) } }
  | true, false => { u with proofOverdue := false, output := { u.output with proofTimer := none } }
  | _, _ => u

theorem settleProof_eq (p q : Plant) (z : Zone) :
    settleProof p q z = q.put z ((q.unit z).proofSettled (p.shouldRun z) (q.shouldRun z) (q.items z).proofDelay) := by
  unfold settleProof ZoneUnit.proofSettled
  cases p.shouldRun z <;> cases q.shouldRun z
  · exact (q.put_unit z).symm
  · rfl
  · rfl
  · exact (q.put_unit z).symm

/-- An operation on each zone in its turn that leaves each as its own unit, and nothing else, decides, leaves them all so. -/
theorem Plant.eachZone_eq_tabulate {p : Plant} {f : Plant → Zone → Plant} {g : Zone → ZoneUnit}
    (h : ∀ zs z, PerZone.get zs z = p.unit z → f { p with zones := zs } z = ({ p with zones := zs } : Plant).put z (g z)) :
    p.eachZone f = { p with zones := PerZone.tabulate g } := by
  rw [Plant.eachZone_eq]
  have ha : f p .a = p.put .a (g .a) := h p.zones .a rfl
  have hb : f (p.put .a (g .a)) .b = (p.put .a (g .a)).put .b (g .b) := h _ .b rfl
  have hc : f ((p.put .a (g .a)).put .b (g .b)) .c = ((p.put .a (g .a)).put .b (g .b)).put .c (g .c) := h _ .c rfl
  rw [ha, hb, hc]
  exact h _ .d rfl

/-- The zones at the end of an event, but for their pins. -/
theorem Plant.eachZone_settleProof (p q : Plant) :
    q.eachZone (settleProof p) =
      { q with
        zones := PerZone.tabulate fun z =>
          (q.unit z).proofSettled (p.shouldRun z) (q.shouldRun z) (q.items z).proofDelay } := by
  refine Plant.eachZone_eq_tabulate fun zs z hz => ?_
  have hu : ({ q with zones := zs } : Plant).unit z = q.unit z := hz
  have hs : ({ q with zones := zs } : Plant).shouldRun z = q.shouldRun z := by
    unfold Plant.shouldRun
    rw [hu]
    rfl
  rw [settleProof_eq, hs, hu]
  rfl

/-- A zone at the end of an event: its proof timer and its pins follow. -/
theorem settle_unit (p q : Plant) (z : Zone) :
    ∃ pins, (settle p q).unit z =
      let u := (q.unit z).proofSettled (p.shouldRun z) (q.shouldRun z) (q.items z).proofDelay
      { u with output := { u.output with pins := pins } } := by
  have hz : (q.eachZone (settleProof p)).unit z =
      (q.unit z).proofSettled (p.shouldRun z) (q.shouldRun z) (q.items z).proofDelay := by
    rw [Plant.eachZone_settleProof]
    exact PerZone.get_tabulate _ z
  refine ⟨((q.eachZone (settleProof p)).settlePins.unit z).output.pins, ?_⟩
  rw [← hz]
  change (q.eachZone (settleProof p)).settlePins.unit z = _
  rw [Plant.settlePins_unit]

/-- Settles O55: the end of an event lets each zone's proof timer, its pins, the lines and ATTN# follow, and nothing else. -/
theorem settleRule : Obligations.SettleRule := by
  unfold Obligations.SettleRule
  intro p q runs
  have hruns : ∀ (x : Plant) z, x.shouldRun z = true ↔ runs x z := fun x z => x.shouldRun_iff z
  have hq : settle p q = (q.eachZone (settleProof p)).settlePins := rfl
  have hline : ∀ i, (settle p q).lines.get i = q.settledLine i := fun i => by
    rw [hq, Plant.eachZone_settleProof, Plant.settlePins_line]
    rfl
  refine ⟨?alerts, ?attn, ?same, ?queue, ?group, fun i => ⟨fun ho => ?output, fun ho => ?input⟩, fun z => ?zone⟩
  case alerts | attn | queue | group => rw [hq, Plant.eachZone_settleProof]; rfl
  case same =>
    rw [hq, Plant.eachZone_settleProof]
    exact ⟨rfl, rfl, rfl, rfl, rfl, rfl, rfl, rfl, rfl, rfl, rfl, rfl⟩
  case output =>
    rw [hline, Plant.settledLine_output ((LineRole.isOutput_iff _).2 ho), Polarity.convert_eq_ite, Plant.driveLevel_eq_ite]
    rfl
  case input => rw [hline, Plant.settledLine_input fun k => ho ((LineRole.isOutput_iff _).1 k)]
  case zone =>
    obtain ⟨pins, hu⟩ := settle_unit p q z
    refine ⟨pins, ?_⟩
    rw [hu, ← hruns, ← hruns]
    refine ⟨fun hp hn => ?starts, fun hp hn => ?stops, fun he => ?stays, Iff.rfl⟩
    case starts => rw [Bool.not_eq_true] at hp; rw [hp, hn]; rfl
    case stops => rw [Bool.not_eq_true] at hn; rw [hp, hn]; rfl
    case stays => rw [Bool.eq_iff_iff.2 he]; cases q.shouldRun z <;> rfl

end Sys2Proof.Machine
end

section
/-! SUPPORT. Proofs: SPRAY and VENT of a zone apart, in its overrides and in its automatic levels, through every operation on the
plant (R122, R123, R127). -/

namespace Sys2Proof.Machine

/-! ### One zone -/

theorem OutputState.Exclusive.fresh : ({} : OutputState).Exclusive := ⟨by simp, by simp⟩

/-- With SPRAY or VENT off, and the same overrides, the two stay apart. -/
theorem OutputState.Exclusive.off {o r : OutputState} (h : o.Exclusive) (ho : r.overrides = o.overrides)
    (hl : r.spray.level = false ∨ r.vent.level = false) : r.Exclusive :=
  ⟨by rw [ho]; exact h.1, fun k => by rcases hl with e | e <;> simp [e] at k⟩

/-- What the sequencers leave of a zone's outputs: they write no override, and cut SPRAY and VENT together. -/
theorem ZoneUnit.Kept.exclusive {u v : ZoneUnit} (k : u.Kept v) (h : u.output.Exclusive) : v.output.Exclusive := by
  rcases k.timed with ⟨-, hs, hv⟩ | ⟨-, hs, -⟩
  · refine ⟨?_, ?_⟩
    · rw [k.overrides]; exact h.1
    · rw [hs, hv]; exact h.2
  · exact h.off k.overrides (.inl (by rw [hs]))

/-- An error that is not positive gives no on-time (R122). -/
theorem onTimeOf_of_nonpos (period : Nat) {error : Int} (band : Int) (h : error ≤ 0) : onTimeOf period error band = 0 :=
  if_pos h

/-- A period gives on-time to SPRAY or to VENT, and never to both, as their errors have opposite signs (R122). -/
theorem ZoneUnit.onTimes_apart (u : ZoneUnit) (items : ZoneConfig) (field : Bool) :
    (u.onTimes items field).2.1 = 0 ∨ (u.onTimes items field).2.2 = 0 := by
  unfold ZoneUnit.onTimes
  split
  · exact .inl rfl
  · split
    · exact .inl rfl
    · split
      · exact .inl rfl
      · next db _ _ _ wb _ =>
        rcases le_total (reported u.climate.wbTarget - min wb db) 0 with h | h
        · exact .inl (onTimeOf_of_nonpos _ _ h)
        · exact .inr (onTimeOf_of_nonpos _ _ (by omega))

/-- An entry OFF or AUTO conflicts with nothing (R127). -/
theorem OverrideTable.conflicts_of_ne_on (t : OverrideTable) (o : OverrideOutput) {e : OverrideEntry} (h : e ≠ .on) :
    t.conflicts o e = false := by
  unfold OverrideTable.conflicts
  split
  · exact absurd rfl h
  · exact absurd rfl h
  · rfl

/-- An entry written without a conflict leaves SPRAY and VENT not both ON (R127). -/
theorem OverrideTable.put_apart {t : OverrideTable} {o : OverrideOutput} {e : OverrideEntry}
    (h : ¬(t.spray = .on ∧ t.vent = .on)) (hc : t.conflicts o e = false) :
    ¬((t.put o e).spray = .on ∧ (t.put o e).vent = .on) := by
  cases o with
  | heat | fanRun | fanDir => exact h
  | spray =>
    rintro ⟨rfl, hv⟩
    rw [show t.vent = .on from hv] at h
    simp [OverrideTable.conflicts, show t.vent = .on from hv] at hc
  | vent =>
    rintro ⟨hs, rfl⟩
    simp [OverrideTable.conflicts, show t.spray = .on from hs] at hc

/-! ### What the sequencers' operations keep in a minute, at a timeout and at a restart -/

namespace Plant.Kept

theorem countCheckpoint (p : Plant) (z : Zone) : p.Kept (p.countCheckpoint z) :=
  have hq := Plant.Kept.context p z fun c => { c with checkpointCount := c.checkpointCount + 1 }
  .ite (hq.trans (.queueCheckpoint _ z)) hq

theorem detach (p : Plant) (z : Zone) : p.Kept (p.detach z) :=
  (((Plant.Kept.context p z _).trans (.raise _ _)).trans (.advance _ z)).trans (.judgeRelease _)

theorem waitMinute (p : Plant) (z : Zone) : p.Kept (p.waitMinute z) :=
  have hq := Plant.Kept.context p z fun c => { c with waitCount := bump 1441 c.waitCount }
  .ite (hq.trans (detach _ z)) hq

theorem sequencerMinute (p : Plant) (z : Zone) : p.Kept (p.sequencerMinute z) := by
  have hclock := fun f : ZoneContext → ZoneContext => (Plant.Kept.context p z f).trans (countCheckpoint _ z)
  unfold Plant.sequencerMinute
  split
  · have hq := hclock fun c => { c with stepClock := bump 65535 c.stepClock, runClock := bump 65535 c.runClock }
    exact .ite (hq.trans (waitMinute _ z)) (hq.trans (.evaluate _ z))
  · exact hclock _
  · exact hclock _
  · exact .refl p

theorem minuteExpiry (p : Plant) (z : Zone) : p.Kept (p.minuteExpiry z) :=
  ((Plant.Kept.context p z _).trans (sequencerMinute _ z)).trans (.fanMinute _ z)

theorem groupTimeoutExpiry (p : Plant) : p.Kept p.groupTimeoutExpiry :=
  (Plant.Kept.groupTimeout p none).trans (.foldl _ (fun q z => .timeoutStart q z) _ _)

theorem restoreZone (p : Plant) (z : Zone) : p.Kept (p.restoreZone z) := by
  unfold Plant.restoreZone
  split
  · exact ((Plant.Kept.queueCheckpoint p z).trans (.soundAlarm _)).trans (.raise _ _)
  · split
    · exact .refl p
    · exact .context p z _
    · exact (Plant.Kept.context p z _).trans (.raise _ _)

end Plant.Kept

/-! ### The plant -/

/-- What is done to the plant leaves SPRAY and VENT of each zone apart where they were apart. -/
def Plant.KeepsApart (p q : Plant) : Prop := ∀ z, (p.unit z).output.Exclusive → (q.unit z).output.Exclusive

theorem Plant.Kept.apart {p q : Plant} (h : p.Kept q) : p.KeepsApart q := fun z => (h.units z).exclusive

namespace Plant.KeepsApart

variable {p q r : Plant}

theorem refl (p : Plant) : p.KeepsApart p := fun _ => id

theorem trans (h : p.KeepsApart q) (k : q.KeepsApart r) : p.KeepsApart r := fun z => k z ∘ h z

theorem ite {c : Prop} [Decidable c] (h : p.KeepsApart q) (k : p.KeepsApart r) : p.KeepsApart (if c then q else r) := by
  split <;> assumption

/-- What leaves the zones as they were. -/
theorem of_zones (h : q.zones = p.zones) : p.KeepsApart q := fun z => by
  rw [Plant.unit, Plant.unit, h]; exact id

/-- A change of one zone's unit. -/
theorem zone (p : Plant) (z : Zone) (f : ZoneUnit → ZoneUnit)
    (h : (p.unit z).output.Exclusive → (f (p.unit z)).output.Exclusive) : p.KeepsApart (p.zone z f) := fun y => by
  rw [Plant.unit_zone]
  split
  · next e => exact e ▸ h
  · exact id

theorem foldl {α : Type} {f : Plant → α → Plant} (hf : ∀ (p : Plant) (x : α), p.KeepsApart (f p x)) (xs : List α)
    (p : Plant) : p.KeepsApart (xs.foldl f p) := by
  induction xs generalizing p with
  | nil => exact .refl p
  | cons x xs ih => exact (hf p x).trans (ih _)

theorem eachZone {f : Plant → Zone → Plant} (hf : ∀ (p : Plant) (z : Zone), p.KeepsApart (f p z)) (p : Plant) :
    p.KeepsApart (p.eachZone f) := .foldl hf _ p

/-! ### What writes neither an override nor an automatic level -/

theorem climate (p : Plant) (z : Zone) (f : ClimateState → ClimateState) : p.KeepsApart (p.climate z f) := .zone p z _ id

theorem pass (p : Plant) (z : Zone) (f : PassState → PassState) : p.KeepsApart (p.pass z f) := .zone p z _ id

theorem fan (p : Plant) (z : Zone) (f : FanState → FanState) : p.KeepsApart (p.fan z f) := .zone p z _ id

theorem raiseIf (p : Plant) (b : Bool) (a : Alert) : p.KeepsApart (p.raiseIf b a) := .ite (.of_zones rfl) (.refl p)

/-! ### Overrides and periods -/

/-- An override entry written without a conflict, or taken away (R127). -/
theorem putOverride (p : Plant) (z : Zone) {o : OverrideOutput} {e : OverrideEntry}
    (h : (p.unit z).output.overrides.conflicts o e = false) : p.KeepsApart (p.overrides z fun t => t.put o e) :=
  .zone p z _ fun hx => ⟨OverrideTable.put_apart hx.1 h, hx.2⟩

/-- Every override becomes AUTO (R128). -/
theorem lapseExpiry (p : Plant) : p.KeepsApart p.lapseExpiry := by
  have hl : p.KeepsApart { p with lapse := none } := .of_zones rfl
  exact (hl.trans (.eachZone (fun q z => .zone q z _ fun hx => ⟨by simp, hx.2⟩) _)).trans (.of_zones rfl)

/-- A new period (R122, R123). -/
theorem periodStart (p : Plant) (z : Zone) : p.KeepsApart (p.periodStart z) := by
  refine .zone p z _ fun hx => hx.off rfl ?_
  rcases (p.unit z).onTimes_apart (p.items z) p.fieldEnabled with h | h
  · exact .inl (by simp [AutoOutput.begin, h])
  · exact .inr (by simp [AutoOutput.begin, h])

/-- The end of an on-time (R123). -/
theorem endOnTime (p : Plant) (z : Zone) (t : TimedOutput) : p.KeepsApart (p.output z fun o => o.endOnTime t) := by
  refine .zone p z _ fun hx => ?_
  cases t with
  | heat => exact hx
  | spray => exact hx.off rfl (.inl rfl)
  | vent => exact hx.off rfl (.inr rfl)

/-! ### Passes and the arbiter -/

theorem replaceAggregate (p : Plant) (z : Zone) : p.KeepsApart (p.replaceAggregate z) :=
  have hq : p.KeepsApart (p.zone z fun u => { u with aggregate := p.formAggregate z }) := .zone p z _ id
  .ite (hq.trans (.of_zones rfl)) hq

theorem endPass (p : Plant) (z : Zone) : p.KeepsApart (p.endPass z) :=
  have hq := (pass p z fun s => { s with progress := none }).trans (replaceAggregate _ z)
  .ite (hq.trans (Plant.Kept.evaluateStart _ z).apart) (hq.trans (Plant.Kept.evaluate _ z).apart)

theorem startPass (p : Plant) (z : Zone) : p.KeepsApart (p.startPass z) := .ite (endPass p z) (pass p z _)

theorem completePass (p : Plant) (z : Zone) : p.KeepsApart (p.completePass z) :=
  .ite (((endPass p z).trans (pass _ z _)).trans (startPass _ z)) (endPass p z)

theorem movePast (p : Plant) (z : Zone) : p.KeepsApart (p.movePast z) := by
  unfold Plant.movePast
  split
  · exact .refl p
  · exact .ite (completePass p z) (pass p z _)

theorem startMeasurement (p : Plant) (who : Requester) (i : Fin 64) : p.KeepsApart (p.startMeasurement who i) :=
  .of_zones rfl

theorem grant (fuel : Nat) (p : Plant) : p.KeepsApart (p.grant fuel) := by
  induction fuel generalizing p with
  | zero => exact .refl p
  | succ fuel ih =>
    unfold Plant.grant
    refine .ite (.refl p) ?_
    split
    · exact .refl p
    · split
      · exact .of_zones rfl
      · exact .refl p
    · next z arbiter _ =>
      split
      · exact .refl p
      · split
        · exact (completePass p z).trans (ih _)
        · have ha : p.KeepsApart { p with arbiter := arbiter } := .of_zones rfl
          exact (ha.trans (pass _ z _)).trans (startMeasurement _ _ _)

theorem arbitrate (p : Plant) : p.KeepsApart p.arbitrate := grant 9 p

theorem judge (p : Plant) (z : Zone) (i : Fin 64) (kind : ProbeKind) (raw : Int) : p.KeepsApart (p.judge z i kind raw) := by
  unfold Plant.judge
  dsimp only
  split
  · exact .refl p
  · split
    · exact .ite (.of_zones rfl) (.of_zones rfl)
    · exact .ite (.of_zones rfl) (.of_zones rfl)
    · exact .of_zones rfl

theorem handOver (p : Plant) (m : Measurement) (raw : Int) : p.KeepsApart (p.handOver m raw) := by
  unfold Plant.handOver
  split
  · exact (Plant.KeepsApart.ite (.refl p) (judge p _ _ _ _)).trans ((pass _ _ _).trans (movePast _ _))
  · exact .ite (.of_zones rfl) (.of_zones rfl)

theorem completeMeasurement (p : Plant) (samples : List Int) : p.KeepsApart (p.completeMeasurement samples) := by
  unfold Plant.completeMeasurement
  split
  · exact .refl p
  · next m _ =>
    have hq : p.KeepsApart { p with frontEnd := { p.frontEnd with inFlight := none }, mux := p.straps.muxOff p.mux } :=
      .of_zones rfl
    exact (hq.trans (handOver _ m _)).trans (arbitrate _)

theorem passExpiry (p : Plant) (z : Zone) : p.KeepsApart (p.passExpiry z) :=
  have hq := pass p z fun s => { s with timer := Timer.minutes (p.items z).passInterval }
  .ite (hq.trans (pass _ z _)) ((hq.trans (startPass _ z)).trans (arbitrate _))

/-! ### Lines -/

theorem line (p : Plant) (i : Fin 16) (f : LineState → LineState) : p.KeepsApart (p.line i f) := .of_zones rfl

theorem takeLevel (p : Plant) (i : Fin 16) (level : Bool) : p.KeepsApart (p.takeLevel i level) :=
  have hq := line p i fun l => { l with debounced := level, settled := true, timer := none }
  .ite (hq.trans (Plant.Kept.deliver p _ _ _ _).apart) hq

theorem beginSettling (p : Plant) (i : Fin 16) : p.KeepsApart (p.beginSettling i) :=
  have hq := line p i fun l =>
    { l with debounced := false, settled := false, timer := some (debounceTime (p.lineItems i).debounce) }
  .ite (hq.trans (takeLevel _ i _)) hq

theorem pinChange (p : Plant) (i : Fin 16) (high : Bool) : p.KeepsApart (p.pinChange i high) :=
  have hq := line p i fun l => { l with external := high }
  .ite hq (.ite (hq.trans (line _ i _)) (.ite (hq.trans (takeLevel _ i _)) (hq.trans (line _ i _))))

theorem debounceExpiry (p : Plant) (i : Fin 16) : p.KeepsApart (p.debounceExpiry i) := .ite (.refl p) (takeLevel p i _)

/-- The line reconfigured, from its latch cleared to its settling begun (R149). -/
theorem configureLine (p : Plant) (i : Fin 16) (c : LineConfig) : p.KeepsApart (p.configureLine i c) := by
  have hq := line p i fun l => { l with latch := false }
  have hleft := fun (b : Bool) => Plant.KeepsApart.ite (c := b = true)
    ((hq.trans (line _ i fun l => { l with debounced := false })).trans
      (Plant.Kept.deliver (p.line i fun l => { l with latch := false }) _ (p.lineItems i).role (p.lineItems i).zone
        false).apart) hq
  have hquiet : ∀ x : Plant, p.KeepsApart x → p.KeepsApart ((x.putLineItems i c).line i fun l =>
      { l with debounced := false, settled := false, timer := none }) := fun x h => h.trans (.of_zones rfl)
  exact .ite (.of_zones rfl) (.ite (hquiet _ (hleft _)) ((hquiet _ (hleft _)).trans (beginSettling _ i)))

/-! ### Starts and samples -/

theorem delayedExpiry (p : Plant) : p.KeepsApart p.delayedExpiry :=
  have hq : p.KeepsApart { p with delayedStart := none } := .of_zones rfl
  hq.trans (Plant.Kept.startEvent _ _ _).apart

theorem sampleComplete (p : Plant) (z : Zone) (db wb : Int) : p.KeepsApart (p.sampleComplete z db wb) :=
  (climate p z _).trans ((Plant.Kept.changeCauses _ z _).trans (.evaluateStart _ z)).apart

theorem reportRamp (p q : Plant) (z : Zone) : q.KeepsApart (p.reportRamp q z) :=
  .ite (Plant.Kept.rampComplete q z).apart (.refl q)

theorem rampExpiry (p : Plant) (z : Zone) : p.KeepsApart (p.rampExpiry z) := (climate p z _).trans (reportRamp p _ z)

theorem proofExpiry (p : Plant) (z : Zone) : p.KeepsApart (p.proofExpiry z) :=
  Plant.KeepsApart.trans (.zone p z _ id) (Plant.Kept.changeCauses _ z _).apart

/-! ### The end of an event, and resets -/

theorem startProof (p : Plant) (z : Zone) : p.KeepsApart (p.startProof z) := .zone p z _ id

theorem settleProof (before after : Plant) (z : Zone) : after.KeepsApart (Machine.settleProof before after z) := by
  unfold Machine.settleProof
  split
  · exact startProof after z
  · exact .zone after z _ id
  · exact .refl after

theorem settlePins (p : Plant) : p.KeepsApart p.settlePins := fun z => by
  rw [Plant.settlePins_unit]; exact id

theorem settle (before q : Plant) : q.KeepsApart (Machine.settle before q) :=
  (eachZone (settleProof before) q).trans (settlePins _)

/-- A millisecond moves timers alone. -/
theorem tick (p : Plant) : p.KeepsApart p.tick := fun z => by
  rw [show p.tick.unit z = (p.unit z).tick from PerZone.get_tabulate _ z]
  exact id

theorem markUnreachable (p : Plant) : p.KeepsApart p.markUnreachable :=
  have hq : p.KeepsApart { p with records := Table.tabulate 64 fun i => p.freshRecord (p.work.probes.get i) } :=
    .of_zones rfl
  hq.trans (raiseIf _ _ _)

theorem startTimers (p : Plant) (z : Zone) : p.KeepsApart (p.startTimers z) := .zone p z _ id

theorem settleLines (p : Plant) : p.KeepsApart p.settleLines :=
  .foldl (fun q i => .ite (.refl q) (beginSettling q i)) _ p

/-- What a restart makes of the plant that a reset has left (R164). -/
theorem restart (p : Plant) (straps : Straps) : p.quiet.KeepsApart (p.restart straps) := by
  have hbase : p.quiet.KeepsApart { p.quiet with straps := straps, work := p.store.load } := .of_zones rfl
  have halerted := ((hbase.trans (raiseIf _ p.store.defaulted (.device .storeDefaulted))).trans (markUnreachable _)).trans
    (Plant.Kept.raise _ (.device .resetSeen)).apart
  have hzoned := (halerted.trans (eachZone startTimers _)).trans
    (eachZone (fun q z => (Plant.Kept.restoreZone q z).apart) _)
  exact (((hzoned.trans (settleLines _)).trans (eachZone startPass _)).trans (arbitrate _)).trans (settlePins _)

end Plant.KeepsApart

end Sys2Proof.Machine
end

section
/-! SUPPORT. Proofs: SPRAY and VENT of a zone apart through what the owner of every request does (R127, R130). -/

namespace Sys2Proof.Machine

/-- What the owner of a request does leaves SPRAY and VENT of each zone apart where they were apart. -/
def Performance.KeepsApart (p : Plant) : Performance → Prop
  | .answered _ => True
  | .performed q _ => p.KeepsApart q

namespace Performance.KeepsApart

variable {p q : Plant}

theorem refuse (p : Plant) (status : Status) : Performance.KeepsApart p (.refuse status) := trivial

theorem read (p : Plant) (content : Content) : Performance.KeepsApart p (.read content) := trivial

/-- A stored item is queued behind what the request does. -/
theorem stored (h : p.KeepsApart q) (item : SectionName) (status : Status) (content : Content) :
    Performance.KeepsApart p (.stored q item status content) :=
  h.trans (.of_zones (Plant.enqueue_zones q (.host item)))

/-- A change of the configuration alone. -/
theorem configured (p : Plant) (f : Configuration → Configuration) (clamped : Bool) :
    Performance.KeepsApart p (.configured (p.configure f) clamped) :=
  .stored (.of_zones (by rfl)) _ _ _

end Performance.KeepsApart

/-! ### What the requests do to the plant -/

namespace Plant.Kept

theorem reload (p : Plant) (z : Zone) (x : StepRecord) : p.Kept (p.reload z x) := by
  have hq := (Plant.Kept.context p z fun c => { c with activeCopy := some x }).trans (.formSetpoints _ z x)
  exact (Plant.Kept.ite (hq.trans (.climate _ z _ ClimateState.ramp_kept)) hq).trans (.setInterval _ z _)

theorem reloadStep (p : Plant) (z : Zone) : p.Kept (p.reloadStep z) := by
  unfold Plant.reloadStep
  split
  · exact .refl p
  · exact (Plant.Kept.reportRamp z (reload p z _)).trans (.evaluate _ z)

theorem abortRun (p : Plant) (z : Zone) (ph : Phase) : p.Kept (p.abortRun z ph) := by
  have hq := (Plant.Kept.context p z
    fun c => { c with holds := {}, holdPending := false, eligible := none, waiting := false, waitCount := 0 }).trans
    (.record _ z .aborted none)
  unfold Plant.abortRun
  refine .ite (hq.trans (.enterIdle _ z)) ?_
  split
  · exact hq.trans (.enterStep _ z _ _ _)
  · exact hq.trans (.enterIdle _ z)

end Plant.Kept

namespace Plant.KeepsApart

theorem takeMaximum (p : Plant) (z : Zone) : p.KeepsApart (p.takeMaximum z) := by
  have hreform : p.KeepsApart (p.reform z) := by
    unfold Plant.reform
    split
    · exact (Plant.Kept.formSetpoints p z _).apart
    · exact .refl p
  have hq := hreform.trans (climate _ z fun c => c.clampTo p.kiln.maximumDb)
  exact (Plant.KeepsApart.ite (hq.trans (climate _ z _)) hq).trans (reportRamp p _ z)

theorem takeSafeFan (p : Plant) (z : Zone) : p.KeepsApart (p.takeSafeFan z) := .ite (fan p z _) (.refl p)

theorem writeKiln (p : Plant) (k : KilnConfig) : p.KeepsApart (p.writeKiln k) := by
  have hq : p.KeepsApart (p.configure fun c => { c with kiln := k }) := .of_zones rfl
  have hr := fun (c : Prop) [Decidable c] => Plant.KeepsApart.ite (c := c) (hq.trans (eachZone takeMaximum _)) hq
  exact (Plant.KeepsApart.ite ((hr _).trans (eachZone takeSafeFan _)) (hr _)).trans
    (eachZone (fun x z => (Plant.Kept.evaluateStart x z).apart) _)

theorem writeZone (p : Plant) (z : Zone) (c : ZoneConfig) : p.KeepsApart (p.writeZone z c) := by
  have hq : p.KeepsApart (p.configure fun x => { x with zones := x.zones.set z c }) := .of_zones rfl
  exact (Plant.KeepsApart.ite (hq.trans (pass _ z _)) hq).trans (Plant.Kept.evaluateStart _ z).apart

theorem markStale (p : Plant) (i : Fin 64) (f : Requester → Bool) : p.KeepsApart (p.markStale i f) := by
  unfold Plant.markStale
  split
  · exact .ite (.of_zones rfl) (.refl p)
  · exact .refl p

theorem writeProbe (p : Plant) (i : Fin 64) (c : ProbeConfig) : p.KeepsApart (p.writeProbe i c) := by
  have hq : p.KeepsApart
      { p with
        work := { p.work with probes := p.work.probes.set i c }
        records := p.records.set i (if c.zone.isSome then some {} else none) } := .of_zones rfl
  exact (hq.trans (markStale _ i _)).trans (.ite (.of_zones rfl) (.refl _))

theorem recover (p : Plant) (z : Zone) : p.KeepsApart (p.recover z) := by
  have hq := (Plant.Kept.changeCauses p z fun c => { c with fan := false, overtemp := false }).apart
  exact .ite (.ite (hq.trans (startProof _ z)) (hq.trans (.zone _ z _ id))) hq

/-- FD cuts SPRAY and VENT of each zone (R130). -/
theorem disableField (p : Plant) :
    p.KeepsApart (({ p with fieldEnabled := false } : Plant).eachZone fun q z => q.output z OutputState.cut) := by
  have hq : p.KeepsApart { p with fieldEnabled := false } := .of_zones rfl
  exact hq.trans (eachZone (fun q z => .zone q z _ fun h => h.off rfl (.inl rfl)) _)

end Plant.KeepsApart

/-! ### The owners -/

section Owners

variable (p : Plant)

theorem performAcknowledge_apart (pairs : List (Nat × Nat)) : (performAcknowledge pairs p).KeepsApart p := by
  unfold performAcknowledge
  split
  · exact .refuse p _
  · exact Plant.KeepsApart.of_zones rfl

theorem performCwKiln_apart (fields : RawKiln) : (performCwKiln fields p).KeepsApart p := by
  unfold performCwKiln
  split
  · exact .refuse p _
  · exact .stored (.writeKiln p _) _ _ _

theorem performCwZone_apart (zone : Nat) (fields : RawZone) : (performCwZone zone fields p).KeepsApart p := by
  unfold performCwZone
  split
  · split
    · exact .refuse p _
    · exact .stored (.writeZone p _ _) _ _ _
  · exact .refuse p _

theorem performCwGroup_apart (together limit : Nat) : (performCwGroup together limit p).KeepsApart p := by
  unfold performCwGroup
  split
  · exact .refuse p _
  · exact .configured p _ _

theorem performCwScan_apart (mode favoured spotEnabled : Nat) :
    (performCwScan mode favoured spotEnabled p).KeepsApart p := by
  have hw : ∀ c, p.KeepsApart (p.writeScan c) := fun c => by
    unfold Plant.writeScan
    cases c.mode <;> exact .of_zones rfl
  unfold performCwScan
  split
  · split
    · exact .stored (hw _) _ _ _
    · exact .refuse p _
  · exact .refuse p _

theorem performCwWindow_apart (window : Nat) (fields : RawWindow) : (performCwWindow window fields p).KeepsApart p := by
  unfold performCwWindow
  split
  · exact .configured p _ _
  · exact .refuse p _

theorem performCwDefault_apart (settle samples : Nat) : (performCwDefault settle samples p).KeepsApart p := by
  unfold performCwDefault
  split
  · exact .configured p _ _
  · exact .refuse p _

theorem performCwLine_apart (line : Nat) (fields : RawLine) : (performCwLine line fields p).KeepsApart p := by
  unfold performCwLine
  split
  · split
    · exact .refuse p _
    · exact .stored (.configureLine p _ _) _ _ _
  · exact .refuse p _

/-- A request that reads performs nothing, whatever index it names. -/
theorem performConfigurationRead_apart (item index : Nat) : (performConfigurationRead item index p).KeepsApart p := by
  unfold performConfigurationRead
  dsimp only
  split
  case h_2 | h_5 | h_7 => split <;> trivial
  all_goals trivial

theorem performProbeWrite_apart (entry : Nat) (fields : RawProbe) : (performProbeWrite entry fields p).KeepsApart p := by
  unfold performProbeWrite
  split
  · split
    · exact .refuse p _
    · exact .stored (.writeProbe p _ _) _ _ _
  · exact .refuse p _

theorem performProbeRead_apart (entry : Nat) : (performProbeRead entry p).KeepsApart p := by
  unfold performProbeRead
  split <;> trivial

theorem performExcludeProbe_apart (entry : Nat) : (performExcludeProbe entry p).KeepsApart p := by
  unfold performExcludeProbe
  split
  · exact .refuse p _
  · split
    · exact .refuse p _
    · next i _ _ r _ =>
      split
      · exact .refuse p _
      · exact .read p _
      · have hq : p.KeepsApart { p with records := p.records.set i (some r.exclude) } := .of_zones rfl
        exact hq.trans (.markStale _ i _)

theorem performReinstateProbe_apart (entry : Nat) : (performReinstateProbe entry p).KeepsApart p := by
  unfold performReinstateProbe
  split
  · exact .refuse p _
  · split
    · exact .refuse p _
    · split
      · exact Plant.KeepsApart.of_zones rfl
      · exact Plant.KeepsApart.of_zones rfl
      · exact .refuse p _

theorem performSpotRequest_apart (entry : Nat) : (performSpotRequest entry p).KeepsApart p := by
  have hq : ∀ i, p.KeepsApart (Plant.arbitrate { p with spot := .waiting i }) := fun i =>
    have hw : p.KeepsApart { p with spot := .waiting i } := .of_zones rfl
    hw.trans (.arbitrate _)
  unfold performSpotRequest
  split
  · exact .refuse p _
  · split
    · exact .refuse p _
    · split
      · exact .refuse p _
      · split
        · exact hq _
        · exact .refuse p _

theorem performSpotResult_apart : (performSpotResult p).KeepsApart p := by
  unfold performSpotResult
  split
  · exact .refuse p _
  · trivial
  · trivial
  · exact Plant.KeepsApart.of_zones rfl

theorem performSpeciesWrite_apart (group k : Nat) (knots : List Nat) : (performSpeciesWrite group k knots p).KeepsApart p := by
  unfold performSpeciesWrite
  split
  · exact .stored (.of_zones (by rfl)) _ _ _
  · exact .refuse p _

theorem performSpeciesRead_apart (group : Nat) : (performSpeciesRead group p).KeepsApart p := by
  unfold performSpeciesRead
  split <;> trivial

theorem performSetCursor_apart (index : Nat) : (performSetCursor index p).KeepsApart p := by
  unfold performSetCursor
  split
  · exact Plant.KeepsApart.of_zones rfl
  · exact .refuse p _

theorem performWriteRecord_apart (record : Option RawStep) : (performWriteRecord record p).KeepsApart p := by
  have ho : ∀ x, (p.offer x).KeepsApart p := fun x => by
    unfold Plant.offer
    split
    · exact .refuse p _
    · exact .stored (.of_zones (by rfl)) _ _ _
  unfold performWriteRecord
  split
  · exact ho _
  · split
    · exact ho _
    · exact .refuse p _

theorem performEntryTableWrite_apart (zone : Nat) (entries : RawEntries) :
    (performEntryTableWrite zone entries p).KeepsApart p := by
  unfold performEntryTableWrite
  split
  · split
    · exact .stored (.of_zones (by rfl)) _ _ _
    · exact .refuse p _
  · exact .refuse p _

theorem performEntryTableRead_apart (zone : Nat) : (performEntryTableRead zone p).KeepsApart p := by
  unfold performEntryTableRead
  split <;> trivial

theorem performStartZone_apart (zone : Nat) : (performStartZone zone p).KeepsApart p := by
  unfold performStartZone
  split
  · exact .refuse p _
  · split
    · exact .refuse p _
    · split
      · exact .refuse p _
      · split
        · exact .refuse p _
        · split
          · trivial
          · exact (Plant.Kept.ite (.groupStart p _ _) (.startAlone p _ _)).apart

theorem performHold_apart (target : Nat) : (performHold target p).KeepsApart p := by
  have hall : ∀ zs : List Zone, p.KeepsApart (zs.foldl Plant.hostHold p).judgeRelease := fun zs =>
    ((Plant.Kept.foldl _ (fun q z => .joinHold q z _) zs p).trans (.judgeRelease _)).apart
  unfold performHold
  split
  · exact hall _
  · split
    · exact .refuse p _
    · split
      · exact hall _
      · exact .refuse p _

theorem performResume_apart (zone : Nat) : (performResume zone p).KeepsApart p := by
  have hall : ∀ zs : List Zone, p.KeepsApart (zs.foldl Plant.hostResume p).judgeRelease := fun zs =>
    ((Plant.Kept.foldl _ (fun q z => .ite (.leaveHold q z _) (.refl q)) zs p).trans (.judgeRelease _)).apart
  unfold performResume
  split
  · exact .refuse p _
  · split
    · exact .refuse p _
    · split
      · split
        · trivial
        · next hq => exact (Plant.Kept.tryResume hq).apart
      · exact hall _
      · exact hall _
      · exact .refuse p _

theorem performSkip_apart (zone : Nat) : (performSkip zone p).KeepsApart p := by
  unfold performSkip
  split
  · exact .refuse p _
  · split
    · exact ((Plant.Kept.becomeEligible p _ _).trans (.judgeRelease _)).apart
    · exact .refuse p _

theorem performAbort_apart (zone : Nat) : (performAbort zone p).KeepsApart p := by
  have hnote : ∀ z, p.KeepsApart ((p.record z .aborted).enterIdle z).judgeRelease := fun z =>
    (((Plant.Kept.record p z .aborted none).trans (.enterIdle _ z)).trans (.judgeRelease _)).apart
  have hrun : ∀ z ph, p.KeepsApart (p.abortRun z ph).judgeRelease := fun z ph =>
    ((Plant.Kept.abortRun p z ph).trans (.judgeRelease _)).apart
  unfold performAbort
  split
  · exact .refuse p _
  · split
    · exact hrun _ _
    · exact hrun _ _
    · exact hnote _
    · exact hnote _
    · exact ((Plant.Kept.enterIdle p _).trans (.judgeGroup _)).apart
    · exact (Plant.Kept.enterIdle p _).apart
    · exact .refuse p _
    · exact .refuse p _

theorem performReloadStep_apart (zone : Nat) : (performReloadStep zone p).KeepsApart p := by
  unfold performReloadStep
  split
  · exact .refuse p _
  · split
    · exact (Plant.Kept.reloadStep p _).apart
    · exact .refuse p _

theorem performClearDone_apart (zone : Nat) : (performClearDone zone p).KeepsApart p := by
  unfold performClearDone
  split
  · exact .refuse p _
  · split
    · exact (Plant.Kept.enterIdle p _).apart
    · exact .refuse p _

theorem performRecover_apart (zone : Nat) : (performRecover zone p).KeepsApart p := by
  unfold performRecover
  split
  · exact .refuse p _
  · split
    · exact .refuse p _
    · split
      · exact .refuse p _
      · exact Plant.KeepsApart.recover p _

theorem performDelayedStartMinutes_apart (minutes : Nat) : (performDelayedStartMinutes minutes p).KeepsApart p := by
  unfold performDelayedStartMinutes
  split
  · exact Plant.KeepsApart.of_zones rfl
  · exact .refuse p _

theorem performZoneRead_apart (zone : Nat) : (performZoneRead zone p).KeepsApart p := by
  unfold performZoneRead
  split <;> trivial

theorem performRunRecordRead_apart (zone position : Nat) : (performRunRecordRead zone position p).KeepsApart p := by
  unfold performRunRecordRead
  split
  · exact .refuse p _
  · split <;> trivial

/-- OV writes an entry that stands in no conflict (R127). -/
theorem performOverride_apart (zone output value : Nat) : (performOverride zone output value p).KeepsApart p := by
  unfold performOverride
  split
  · split
    · exact .refuse p _
    · next hc => exact (Plant.KeepsApart.putOverride p _ (Bool.not_eq_true _ ▸ hc)).trans (.of_zones rfl)
  · exact .refuse p _

theorem performReleaseOverride_apart (zone output : Nat) : (performReleaseOverride zone output p).KeepsApart p := by
  unfold performReleaseOverride
  split
  · have hc := fun t o => OverrideTable.conflicts_of_ne_on t o (e := .auto) nofun
    exact (Plant.KeepsApart.putOverride p _ (hc _ _)).trans (.ite (.refl _) (.of_zones rfl))
  · exact .refuse p _

theorem performRefreshOverrides_apart : (performRefreshOverrides p).KeepsApart p :=
  Plant.KeepsApart.ite (p := p) (.of_zones rfl) (.refl p)

theorem performFieldEnable_apart : (performFieldEnable p).KeepsApart p := by
  unfold performFieldEnable
  split
  · exact .read p _
  · have hq : p.KeepsApart { p with fieldEnabled := true } := .of_zones rfl
    exact hq.trans (Plant.Kept.eachZone_autoResume _).apart

theorem performFieldDisable_apart : (performFieldDisable p).KeepsApart p := by
  unfold performFieldDisable
  split
  · exact .refuse p _
  · split
    · exact .read p _
    · exact Plant.KeepsApart.disableField p

theorem performLineModify_apart (mask values : Nat) : (performLineModify mask values p).KeepsApart p := by
  unfold performLineModify
  split
  · exact Plant.KeepsApart.of_zones rfl
  · exact .refuse p _

end Owners

end Sys2Proof.Machine
end

section
/-! SUPPORT. Proofs: the levels through every command and every millisecond, and the statement on the zone pins (R122, R127, R129,
R132). -/

namespace Sys2Proof.Machine

/-! ### The levels of a part that runs -/

/-- Where SPRAY and VENT are apart in the overrides and in the automatic levels, their pins are never on together: outside SAFE,
where SPRAY is off, an override ON of the one keeps the other off (R127, R129). -/
theorem ZoneUnit.levels_apart (u : ZoneUnit) (field : Bool) (setting : SafeVent) (h : u.output.Exclusive) :
    ¬(u.sprayLevel field = true ∧ u.ventLevel field setting = true) := by
  rw [ZoneUnit.sprayLevel_iff, ZoneUnit.ventLevel_iff]
  rintro ⟨⟨hn, -, hs⟩, -, hv⟩
  obtain ⟨ho, hl⟩ := h
  cases es : u.output.overrides.spray with
  | off => rw [es] at hs; exact hs
  | on =>
    cases ev : u.output.overrides.vent with
    | off => rw [ev] at hv; exact hv
    | on => exact ho ⟨es, ev⟩
    | auto => rw [ev] at hv; exact (hv.2 hn).1 es
  | auto =>
    rw [es] at hs
    cases ev : u.output.overrides.vent with
    | off => rw [ev] at hv; exact hv
    | on => exact hs.1 ev
    | auto => rw [ev] at hv; exact hl ⟨hs.2, (hv.2 hn).2⟩

/-! ### The levels through what changes no level -/

/-- A millisecond leaves every level as it stands: no level follows from a timer. -/
theorem Plant.Levelled.tick {p : Plant} (h : p.Levelled) : p.tick.Levelled where
  attn := h.attn
  pins z := by
    rw [show p.tick.unit z = (p.unit z).tick from PerZone.get_tabulate _ z]
    exact h.pins z
  lines i := by
    have ht : p.tick.lines.get i = { p.lines.get i with timer := (p.lines.get i).timer.tick } := Table.get_map _ _ i
    have hl := h.lines i
    have hd : p.tick.driveLevel i = p.driveLevel i := by
      unfold Plant.driveLevel
      rw [ht]
      rfl
    by_cases ho : (p.lineItems i).role.isOutput = true
    · rw [Plant.settledLine_output ho] at hl
      rw [Plant.settledLine_output (p := p.tick) ho, hd, ht, hl]
      rfl
    · rw [Plant.settledLine_input ho] at hl
      rw [Plant.settledLine_input (p := p.tick) ho, ht, hl]

/-- What leaves the zones, the lines and all that the levels follow from as they were. -/
theorem Plant.Levelled.of_same {p q : Plant} (h : p.Levelled) (hz : q.zones = p.zones) (hl : q.lines = p.lines)
    (hf : q.fieldEnabled = p.fieldEnabled) (hw : q.work = p.work) (ha : q.alerts = p.alerts) (ht : q.attn = p.attn) :
    q.Levelled := by
  rw [← settle_of_same h hz hl hf (by rw [hw]) (by rw [Plant.kiln, hw]; rfl) ha ht]
  exact settle_levelled p q

/-- The completion of a write changes the store and its queue alone. -/
theorem Plant.completeWrite_eq (p : Plant) :
    p.completeWrite = { p with store := p.completeWrite.store, queue := p.completeWrite.queue } := by
  unfold Plant.completeWrite
  split <;> rfl

/-! ### The state -/

namespace State.PinsLawful

variable {s t : State}

/-- No pin follows from the link, nor from the commands that wait. -/
theorem of_plant (h : s.PinsLawful) (hm : t.mode = s.mode) (hp : t.plant = s.plant) : t.PinsLawful :=
  ⟨fun e => hp ▸ h.running (hm ▸ e), fun e z => hp ▸ h.quiet (hm ▸ e) z, fun z => hp ▸ h.exclusive z⟩

theorem withLink (h : s.PinsLawful) (f : LinkState → LinkState) : (s.withLink f).PinsLawful := h.of_plant rfl rfl

/-- A part that runs is left with every level up to date, and with SPRAY and VENT of each zone apart. -/
theorem levelled (h : s.PinsLawful) (hr : s.mode = .running) {q : Plant} (hl : q.Levelled) (hq : s.plant.KeepsApart q)
    (hm : t.mode = s.mode) (hp : t.plant = q) : t.PinsLawful :=
  ⟨fun _ => hp ▸ hl, fun e => absurd (hm.trans hr) e, fun z => hp ▸ hq z (h.exclusive z)⟩

/-- An event of a part that runs. -/
theorem event (h : s.PinsLawful) {f : Plant → Plant} (hf : s.plant.KeepsApart (f s.plant)) : (s.event f).PinsLawful := by
  unfold State.event
  split
  · next hr => exact h.levelled hr (settle_levelled _ _) (hf.trans (.settle _ _)) rfl rfl
  · exact h

/-- An expiry of a timer. -/
theorem expiry (h : s.PinsLawful) {t : Plant → Timer} {f : Plant → Plant} (hf : ∀ p : Plant, p.KeepsApart (f p)) :
    (s.event fun p => p.whileRunning (t p) (f p)).PinsLawful := h.event (.ite (hf _) (.refl _))

end State.PinsLawful

/-! ### Requests -/

/-- What the taking of a request makes of a part that runs: the pins stand at their levels still. -/
def State.TakesLawfully (f : State → State × Answer) : Prop :=
  ∀ s : State, s.mode = .running → s.PinsLawful → (f s).1.PinsLawful

namespace State.TakesLawfully

/-- A request that leaves the plant as it is. -/
theorem of_plant {f : State → State × Answer} (hm : ∀ s, (f s).1.mode = s.mode) (hp : ∀ s, (f s).1.plant = s.plant) :
    State.TakesLawfully f := fun s _ h => h.of_plant (hm s) (hp s)

/-- A request that a block below the link carries out. -/
theorem ask {f : Plant → Performance} (hf : ∀ p, (f p).KeepsApart p) : State.TakesLawfully fun s => s.ask f := by
  intro s hr h
  have hs := hf s.plant
  unfold State.ask
  dsimp only
  split
  · exact h
  · next hq =>
    rw [hq] at hs
    exact h.levelled hr (settle_levelled _ _) (hs.trans (.settle _ _)) rfl rfl

/-- A request denied at the gate changes nothing (R174). -/
theorem perform {f : State → State × Answer} (hf : State.TakesLawfully f) (kind : RequestKind) :
    State.TakesLawfully fun s => s.perform kind f := by
  intro s hr h
  dsimp only
  unfold State.perform
  split
  · exact h
  · exact hf s hr h

end State.TakesLawfully

/-- UN moves the gate alone (R177). -/
theorem performUnlock_lawful (code : List Byte) : State.TakesLawfully (performUnlock code) := by
  have hsame : ∀ s, (performUnlock code s).1.mode = s.mode ∧ (performUnlock code s).1.plant = s.plant := fun s => by
    unfold performUnlock
    split
    · exact ⟨rfl, rfl⟩
    · exact ⟨rfl, rfl⟩
    · split <;> exact ⟨rfl, rfl⟩
  exact .of_plant (fun s => (hsame s).1) fun s => (hsame s).2

/-- What the owner of any request does. -/
theorem performRequest_lawful (i : Instr) : State.TakesLawfully (performRequest i) := by
  cases i with
  | unlock env code => exact performUnlock_lawful code
  | acknowledgeAlerts env pairs => exact .ask fun p => performAcknowledge_apart p _
  | changeCode env code => exact .ask fun p => .stored (.of_zones (by rfl)) _ _ _
  | cwKiln env fields => exact .ask fun p => performCwKiln_apart p _
  | cwZone env zone fields => exact .ask fun p => performCwZone_apart p _ _
  | cwGroup env together limit => exact .ask fun p => performCwGroup_apart p _ _
  | cwScan env mode favoured spot => exact .ask fun p => performCwScan_apart p _ _ _
  | cwWindow env window fields => exact .ask fun p => performCwWindow_apart p _ _
  | cwDefault env settle samples => exact .ask fun p => performCwDefault_apart p _ _
  | cwLine env line fields => exact .ask fun p => performCwLine_apart p _ _
  | configurationRead env item index => exact .ask fun p => performConfigurationRead_apart p _ _
  | probeWrite env entry fields => exact .ask fun p => performProbeWrite_apart p _ _
  | probeRead env entry => exact .ask fun p => performProbeRead_apart p _
  | excludeProbe env entry => exact .ask fun p => performExcludeProbe_apart p _
  | reinstateProbe env entry => exact .ask fun p => performReinstateProbe_apart p _
  | spotRequest env entry => exact .ask fun p => performSpotRequest_apart p _
  | spotResult env => exact .ask performSpotResult_apart
  | speciesWrite env group k knots => exact .ask fun p => performSpeciesWrite_apart p _ _ _
  | speciesRead env group => exact .ask fun p => performSpeciesRead_apart p _
  | setCursor env index => exact .ask fun p => performSetCursor_apart p _
  | writeRecord env record => exact .ask fun p => performWriteRecord_apart p _
  | entryTableWrite env zone entries => exact .ask fun p => performEntryTableWrite_apart p _ _
  | entryTableRead env zone => exact .ask fun p => performEntryTableRead_apart p _
  | startZone env zone => exact .ask fun p => performStartZone_apart p _
  | hold env target => exact .ask fun p => performHold_apart p _
  | resume env zone => exact .ask fun p => performResume_apart p _
  | skip env zone => exact .ask fun p => performSkip_apart p _
  | abort env zone => exact .ask fun p => performAbort_apart p _
  | reloadStep env zone => exact .ask fun p => performReloadStep_apart p _
  | clearDone env zone => exact .ask fun p => performClearDone_apart p _
  | recover env zone => exact .ask fun p => performRecover_apart p _
  | delayedStartMinutes env minutes => exact .ask fun p => performDelayedStartMinutes_apart p _
  | override env zone output value => exact .ask fun p => performOverride_apart p _ _ _
  | releaseOverride env zone output => exact .ask fun p => performReleaseOverride_apart p _ _
  | refreshOverrides env => exact .ask performRefreshOverrides_apart
  | fieldEnable env => exact .ask performFieldEnable_apart
  | fieldDisable env => exact .ask performFieldDisable_apart
  | lineModify env mask values => exact .ask fun p => performLineModify_apart p _ _
  | zoneRead env zone => exact .ask fun p => performZoneRead_apart p _
  | runRecordRead env zone position => exact .ask fun p => performRunRecordRead_apart p _ _
  | identify | rsReset | lineRead | delayedStartQuery => exact .ask fun p => .read p _
  | readRecord | delayedStartCancel => exact .ask fun p => Plant.KeepsApart.of_zones rfl
  | _ => exact .of_plant (fun _ => rfl) fun _ => rfl

/-! ### The link -/

namespace State.PinsLawful

variable {s : State}

/-- A frame that completes is taken by a part that runs, or counted as an overrun, or lost (R162, R171). -/
theorem complete (h : s.PinsLawful) {f : State → State × Answer} (hf : State.TakesLawfully f) (env : Envelope)
    (letters : Byte × Byte) : (s.complete fun x => State.note (f x) env letters).PinsLawful := by
  unfold State.complete
  split
  · next hr =>
    split
    · exact h
    · split
      · exact h.withLink _
      · exact (hf (s.withLink fun l => { l with receiver := .hunt }) hr (h.withLink _)).withLink _
  · exact h

theorem take (h : s.PinsLawful) {f : State → State × Answer} (hf : State.TakesLawfully f) (env : Envelope)
    (kind : RequestKind) : (s.take env kind f).PinsLawful := h.complete (hf.perform kind) env _

/-- What a taken frame asks, whatever its bytes are (R174). -/
theorem takeFrame (h : s.PinsLawful) (env : Envelope) (letters : Byte × Byte) (payload : List Byte) :
    (s.takeFrame env letters payload).PinsLawful := by
  have refused : State.TakesLawfully fun x => (x, { status := .badForm }) := fun _ _ hx => hx
  have undefined : State.TakesLawfully fun x => (x, { status := .badValue }) := fun _ _ hx => hx
  refine h.complete (f := fun x => x.answerFrame env letters payload) ?_ env letters
  unfold State.answerFrame
  cases kindOf letters with
  | none => exact refused
  | some kind =>
    dsimp only
    unfold State.answerPayload
    cases parsePayload env kind payload with
    | badForm => exact refused
    | undefinedValue k => exact undefined.perform k
    | request i => exact (performRequest_lawful i).perform kind

theorem hunt (h : s.PinsLawful) : s.hunt.PinsLawful := h.withLink _

theorem checkError (h : s.PinsLawful) : s.checkError.PinsLawful := h.withLink _

theorem discard (h : s.PinsLawful) : s.discard.PinsLawful := by
  unfold State.discard
  split
  · exact h.hunt
  · exact h

theorem judgeFrame (h : s.PinsLawful) (bytes : List Byte) : (s.judgeFrame bytes).PinsLawful := by
  unfold State.judgeFrame
  split
  · exact h.checkError
  · split
    · exact h.hunt
    · exact h.takeFrame _ _ _

theorem takeByte (h : s.PinsLawful) (b : Byte) : (s.takeByte b).PinsLawful := by
  have hcollect : ∀ bytes, (s.collect bytes).PinsLawful := fun bytes => by
    unfold State.collect
    split
    · exact h.checkError
    · split
      · exact h.judgeFrame bytes
      · exact h.withLink _
  unfold State.takeByte
  split
  · split
    · split
      · exact h.withLink _
      · exact h
    · exact hcollect _
  · exact h

/-! ### Resets and the supply -/

/-- A reset, and the loss of the supply, leave every zone pin off (R129, R132). -/
theorem quieted {t : State} (hm : t.mode ≠ .running) {p : Plant} (hp : t.plant = p.quiet) : t.PinsLawful := by
  have hz : ∀ z, t.plant.unit z = {} := fun z => by rw [hp]; exact PerZone.get_all _ z
  exact ⟨fun hr => absurd hr hm, fun _ z => by rw [hz], fun z => by rw [hz]; exact .fresh⟩

theorem takeReset (s : State) (k : ResetKind) : (s.takeReset k).PinsLawful := quieted (fun hr => nomatch hr) rfl

theorem loseSupply (h : s.PinsLawful) : s.loseSupply.PinsLawful := by
  unfold State.loseSupply
  split
  · exact h
  · exact quieted (fun hr => nomatch hr) rfl

/-- A restart brings every level up to date (R164). -/
theorem endReset (h : s.PinsLawful) (straps : Straps) : (s.endReset straps).PinsLawful := by
  unfold State.endReset
  split
  · refine ⟨fun _ => Plant.settlePins_levelled _, fun hn => absurd rfl hn, fun z => Plant.KeepsApart.restart _ _ z ?_⟩
    rw [show s.plant.quiet.unit z = {} from PerZone.get_all _ z]
    exact .fresh
  · exact h

theorem startReply (h : s.PinsLawful) : s.startReply.PinsLawful := by
  unfold State.startReply
  split
  · split
    · exact h
    · split
      · split
        · exact takeReset s _
        · exact h.withLink _
      · exact h.withLink _
  · exact h

theorem endReply (h : s.PinsLawful) : s.endReply.PinsLawful := by
  unfold State.endReply
  split
  · exact h.withLink _
  · exact h

/-! ### The store, the lines and the passing of time -/

theorem completeWrite (h : s.PinsLawful) : s.completeWrite.PinsLawful := by
  have hw : ∀ t : State, s.mode = .running → t.mode = s.mode → t.plant = s.plant.completeWrite → t.PinsLawful :=
    fun t hr hm hp => by
      refine h.levelled hr (q := s.plant.completeWrite) ?_ ?_ hm hp
      · rw [Plant.completeWrite_eq]
        exact (h.running hr).of_same rfl rfl rfl rfl rfl rfl
      · rw [Plant.completeWrite_eq]
        exact .of_zones rfl
  unfold State.completeWrite
  split
  · next hr _ => exact hw _ hr rfl rfl
  · next hr _ => exact hw _ hr rfl rfl
  · exact h

/-- A change at a line's pin while the part does not run reaches no zone (R151, R154). -/
theorem quietPinChange (h : s.PinsLawful) (hm : s.mode ≠ .running) (i : Fin 16) (high : Bool) :
    ({ s with plant := s.plant.quietPinChange i high } : State).PinsLawful :=
  ⟨fun hr => absurd hr hm, fun _ => h.quiet hm, h.exclusive⟩

theorem idle (h : s.PinsLawful) : s.idle.PinsLawful := by
  unfold State.idle
  split
  · next hr => exact h.levelled hr (h.running hr).tick (.tick _) rfl rfl
  · exact h

theorem ite {c : Prop} [Decidable c] {t r : State} (h : t.PinsLawful) (k : r.PinsLawful) :
    (if c then t else r).PinsLawful := by
  split <;> assumption

/-- What any command leaves. -/
theorem exec (h : s.PinsLawful) (i : Instr) : ∃ t, Machine.exec i s = .next t ∧ t.PinsLawful := by
  by_cases hr : i.envelope.isSome = true
  · obtain ⟨env, kind, ht⟩ := exec_request hr s
    exact ⟨_, ht, h.take (performRequest_lawful i) env kind⟩
  · cases i with
    | frameComplete crcLow => exact ⟨_, rfl, .ite (h.takeByte crcLow) h⟩
    | badLengthByte length => exact ⟨_, rfl, .ite (.ite h.checkError h) h⟩
    | interByteTimeout => exact ⟨_, rfl, h.discard⟩
    | stopBitError => exact ⟨_, rfl, h.discard⟩
    | lineBreak => exact ⟨_, rfl, h.discard⟩
    | byteArrival byte => exact ⟨_, rfl, h.takeByte byte⟩
    | replyStart => exact ⟨_, rfl, h.startReply⟩
    | replyEnd => exact ⟨_, rfl, h.endReply⟩
    | powerOnReset => exact ⟨_, rfl, takeReset s _⟩
    | pinReset => exact ⟨_, rfl, .ite (takeReset s _) h⟩
    | commandedReset => exact ⟨_, rfl, .ite (takeReset s _) h⟩
    | restart sta bd mxs => exact ⟨_, rfl, h.endReset _⟩
    | powerLoss => exact ⟨_, rfl, h.loseSupply⟩
    | storeWriteComplete => exact ⟨_, rfl, h.completeWrite⟩
    | passTimerExpiry zone => exact ⟨_, rfl, h.expiry fun p => .passExpiry p zone⟩
    | measurementCompletion samples => exact ⟨_, rfl, h.event (.completeMeasurement _ samples)⟩
    | minuteTimerExpiry zone => exact ⟨_, rfl, h.expiry fun p => (Plant.Kept.minuteExpiry p zone).apart⟩
    | startTimeoutExpiry zone =>
      exact ⟨_, rfl, h.expiry fun p => .ite (Plant.Kept.timeoutStart p zone).apart (.refl p)⟩
    | delayedStartExpiry => exact ⟨_, rfl, h.expiry .delayedExpiry⟩
    | groupStartTimeoutExpiry => exact ⟨_, rfl, h.expiry fun p => (Plant.Kept.groupTimeoutExpiry p).apart⟩
    | climateSampleComplete zone db wb => exact ⟨_, rfl, h.expiry fun p => .sampleComplete p zone db wb⟩
    | rampMinuteExpiry zone => exact ⟨_, rfl, h.expiry fun p => .rampExpiry p zone⟩
    | pulsePeriodStart zone => exact ⟨_, rfl, h.expiry fun p => .periodStart p zone⟩
    | onTimeExpiry zone output => exact ⟨_, rfl, h.expiry fun p => .endOnTime p zone output⟩
    | dwellExpiry zone => exact ⟨_, rfl, h.expiry fun p => .fan p zone _⟩
    | proofDelayExpiry zone => exact ⟨_, rfl, h.expiry fun p => .proofExpiry p zone⟩
    | overrideLapseExpiry => exact ⟨_, rfl, h.expiry .lapseExpiry⟩
    | pinChange line high =>
      refine ⟨_, rfl, ?_⟩
      split
      · exact h.event (.pinChange _ line high)
      · next hn => exact h.quietPinChange hn line high
    | debounceTimerExpiry line => exact ⟨_, rfl, h.event (.debounceExpiry _ line)⟩
    | _ => exact absurd rfl hr

/-- What a step leaves. -/
theorem step {t : State} (h : s.PinsLawful) (hs : Machine.step s = .next t) : t.PinsLawful := by
  unfold Machine.step at hs
  split at hs
  · cases hs
    exact h.idle
  · next c rest _ =>
    obtain ⟨t', ht, hl⟩ := (h.of_plant (t := { s with pending := rest }) rfl rfl).exec c
    rw [ht] at hs
    cases hs
    exact hl

end State.PinsLawful

/-- Settles O56: every step leaves the levels up to date and SPRAY and VENT apart, and the levels are the rows of R129. -/
theorem zonePinsLaw : Obligations.ZonePinsLaw := by
  unfold Obligations.ZonePinsLaw
  intro s t h hs
  have ht := h.step hs
  refine ⟨ht, ht.quiet, fun hr z => ?_⟩
  intro u o level safe field
  have hp : o.pins = u.levels t.plant.fieldEnabled t.plant.kiln.safeVent := (ht.running hr).pins z
  have hheat := u.heatLevel_iff t.plant.fieldEnabled
  have hspray := u.sprayLevel_iff t.plant.fieldEnabled
  have hapart := u.levels_apart t.plant.fieldEnabled t.plant.kiln.safeVent (ht.exclusive z)
  rw [hp]
  refine ⟨hheat, hspray, u.ventLevel_iff _ _, u.fanRunLevel_iff _, u.fanDirLevel_iff _, hapart, fun hoff => ?_⟩
  have hno : ∀ {a : Prop}, ¬(¬safe ∧ field ∧ a) := fun k => hoff.elim k.1 fun hf => hf k.2.1
  exact ⟨Bool.eq_false_iff.2 fun k => hno (hheat.1 k), Bool.eq_false_iff.2 fun k => hno (hspray.1 k)⟩

end Sys2Proof.Machine
end

section
/-! SUPPORT. Proofs: OV, OR and RF, the override table and the lapse timer, and the statement on them (R127, R128). -/

namespace Sys2Proof.Machine

/-! ### The override table -/

/-- The outputs in the order of their codes (R175). -/
def overrideOutput : Fin 5 → OverrideOutput
  | 0 => .heat
  | 1 => .spray
  | 2 => .vent
  | 3 => .fanRun
  | 4 => .fanDir

theorem overrideOutputOf_val (o : Fin 5) : overrideOutputOf o.val = some (overrideOutput o) := by
  revert o; decide

theorem overrideOutputOf_eq_none {n : Nat} (h : 5 ≤ n) : overrideOutputOf n = none := by
  obtain ⟨m, rfl⟩ := Nat.exists_eq_add_of_le' h
  rfl

theorem overrideValueOf_eq_none {n : Nat} (h : n = 0 ∨ 3 ≤ n) : overrideValueOf n = none := by
  rcases h with rfl | h
  · rfl
  · obtain ⟨m, rfl⟩ := Nat.exists_eq_add_of_le' h
    rfl

/-- SPRAY ON conflicts with a VENT that is ON, and VENT ON with a SPRAY that is ON (R127). -/
theorem OverrideTable.conflicts_on_iff (t : OverrideTable) (o : Fin 5) :
    t.conflicts (overrideOutput o) .on = true ↔ (o = 1 ∧ t.vent = .on) ∨ (o = 2 ∧ t.spray = .on) := by
  fin_cases o <;> simp [overrideOutput, OverrideTable.conflicts]

theorem OverrideTable.stands_iff (t : OverrideTable) :
    t.stands = true ↔
      ¬(t.heat = .auto ∧ t.spray = .auto ∧ t.vent = .auto ∧ t.fanRun = .auto ∧ t.fanDir = .auto) := by
  simp only [OverrideTable.stands, Bool.or_eq_true, bne_iff_ne, not_and_or, or_assoc, ne_eq]

theorem Plant.overrideStands_iff (p : Plant) :
    p.overrideStands = true ↔ ∃ y, (p.unit y).output.overrides.stands = true := by
  rw [Plant.overrideStands, List.any_eq_true]
  exact exists_congr fun y => and_iff_right (Zone.mem_order y)

/-! ### The owners -/

theorem performOverride_undefined (p : Plant) {y n v : Nat} (h : 4 ≤ y ∨ 5 ≤ n ∨ v = 0 ∨ 3 ≤ v) :
    performOverride y n v p = .refuse .badValue := by
  unfold performOverride
  split
  · next hy hn hv =>
    rcases h with h | h | h
    · rw [zoneOf_eq_none h] at hy; cases hy
    · rw [overrideOutputOf_eq_none h] at hn; cases hn
    · rw [overrideValueOf_eq_none h] at hv; cases hv
  · rfl

/-- OV of defined operands: refused in a conflict, and otherwise the entry is written and the lapse timer started (R127, R128). -/
theorem performOverride_defined (p : Plant) (z : Zone) (o : Fin 5) {v : Nat} {e : OverrideEntry}
    (hv : overrideValueOf v = some e) :
    performOverride z.code o.val v p =
      if (p.unit z).output.overrides.conflicts (overrideOutput o) e = true then .refuse .conflict
      else .ok (p.overrides z fun t => t.put (overrideOutput o) e).startLapse := by
  unfold performOverride
  rw [zoneOf_code, overrideOutputOf_val, hv]

theorem performReleaseOverride_undefined (p : Plant) {y n : Nat} (h : 4 ≤ y ∨ 5 ≤ n) :
    performReleaseOverride y n p = .refuse .badValue := by
  unfold performReleaseOverride
  split
  · next hy hn =>
    rcases h with h | h
    · rw [zoneOf_eq_none h] at hy; cases hy
    · rw [overrideOutputOf_eq_none h] at hn; cases hn
  · rfl

theorem performReleaseOverride_defined (p : Plant) (z : Zone) (o : Fin 5) :
    performReleaseOverride z.code o.val p =
      let q := (p.overrides z fun t => t.put (overrideOutput o) .auto).stopLapse
      .ok q (.lapseLeft q.lapse.minutesLeft) := by
  unfold performReleaseOverride
  rw [zoneOf_code, overrideOutputOf_val]

/-! ### The statement -/

/-- Settles O29: each request is one answer of its owner, and no level follows from the lapse timer that RF starts again. -/
theorem overrideRequests : Obligations.OverrideRequests := by
  unfold Obligations.OverrideRequests
  intro s env z o p u t entry withEntry stands minutes restarted
  have hentry : ∀ e, t.put (overrideOutput o) e = entry e := fun e => by fin_cases o <;> rfl
  have hwith : ∀ e, (p.overrides z fun t => t.put (overrideOutput o) e) = withEntry e := fun e => by
    change p.put z { u with output := { u.output with overrides := t.put (overrideOutput o) e } } = _
    rw [hentry]
  have hstands : ∀ q : Plant, q.overrideStands = true ↔ stands q := fun q =>
    q.overrideStands_iff.trans (exists_congr fun y => OverrideTable.stands_iff _)
  have written : ∀ e, (p.overrides z fun t => t.put (overrideOutput o) e).startLapse =
      { withEntry e with lapse := restarted } := fun e => by rw [hwith]; rfl
  refine ⟨fun h => ⟨fun y n v hn => ?undefined, fun hc => ?conflict, fun hc => ?on, ?off⟩,
    fun h => ⟨fun y n hn => ?undefinedRelease, fun hs => ?released, fun hs => ?last⟩,
    fun h hl => ⟨fun hs => ?refreshed, fun hs => ?nothing⟩⟩
  case undefined => exact congrArg _ (State.take_refuse h env (performOverride_undefined p hn))
  case conflict =>
    have hf := performOverride_defined p z o (v := 1) rfl
    rw [if_pos ((t.conflicts_on_iff o).2 hc)] at hf
    exact congrArg _ (State.take_refuse h env hf)
  case on =>
    have hf := performOverride_defined p z o (v := 1) rfl
    rw [if_neg fun k => hc ((t.conflicts_on_iff o).1 k), written] at hf
    exact congrArg _ (State.take_performed h env hf)
  case off =>
    have hf := performOverride_defined p z o (v := 2) rfl
    rw [OverrideTable.conflicts_of_ne_on _ _ (e := .off) nofun, if_neg Bool.false_ne_true, written] at hf
    exact congrArg _ (State.take_performed h env hf)
  case undefinedRelease => exact congrArg _ (State.take_refuse h env (performReleaseOverride_undefined p hn))
  case released =>
    have hf := performReleaseOverride_defined p z o
    rw [hwith, Plant.stopLapse, if_pos ((hstands _).2 hs)] at hf
    exact congrArg _ (State.take_performed h env hf)
  case last =>
    have hf := performReleaseOverride_defined p z o
    rw [hwith, Plant.stopLapse, if_neg fun k => hs ((hstands _).1 k)] at hf
    exact congrArg _ (State.take_performed h env hf)
  case refreshed =>
    have hq : settle p p.startLapse = p.startLapse := settle_of_same hl rfl rfl rfl rfl rfl rfl rfl
    have hf : performRefreshOverrides p = .ok p.startLapse (.lapseLeft p.startLapse.lapse.minutesLeft) := by
      rw [performRefreshOverrides, if_pos ((hstands p).2 hs)]
    have hx := State.take_performed h env hf
    rw [hq] at hx
    exact congrArg _ hx
  case nothing =>
    have hf : performRefreshOverrides p = .ok p (.lapseLeft p.lapse.minutesLeft) := by
      rw [performRefreshOverrides, if_neg fun k => hs ((hstands p).1 k)]
    have hx := State.take_performed h env hf
    rw [settle_self hl] at hx
    exact congrArg _ hx

end Sys2Proof.Machine
end

section
/-! SUPPORT. Proofs: the pulse periods, and the statement on them (R122, R123). -/

namespace Sys2Proof.Machine

/-- The share of a period (R122): nothing for an error that is not positive, and no less than 2 seconds otherwise. -/
theorem onTimeOf_eq_of_share {period n : Nat} {error band : Int} (hz : error ≤ 0 → n = 0)
    (hs : 0 < error →
      let t := (2 * (period * (min error band).toNat) + band.toNat) / (2 * band.toNat)
      n = if t < 2 then 0 else t) : onTimeOf period error band = n := by
  rcases lt_or_ge 0 error with h | h
  · rw [hs h]
    exact if_neg (by omega)
  · rw [hz h]
    exact onTimeOf_of_nonpos _ _ h

/-- The zone is in a phase state or HELD, its fan is not in dwell, and the field is enabled: its periods take on-times (R122). -/
def ZoneUnit.Controlled (u : ZoneUnit) (field : Bool) : Prop :=
  (u.ctx.state = .held ∨ u.ctx.state.inPhase = true) ∧ u.output.fan.machine ≠ .dwellToRev ∧
    u.output.fan.machine ≠ .dwellToFwd ∧ field = true

theorem ZoneUnit.controlled_iff (u : ZoneUnit) (field : Bool) :
    u.Controlled field ↔ (!u.ctx.state.runs || u.output.fan.machine.dwells || !field) = false := by
  rw [Bool.or_eq_false_iff, Bool.or_eq_false_iff, Bool.not_eq_false', Bool.not_eq_false', ZoneState.runs_iff,
    ← Bool.not_eq_true, FanMachine.dwells_iff, not_or, and_assoc, and_assoc]
  rfl

section OnTimes

variable {u : ZoneUnit} (items : ZoneConfig) {field : Bool}

/-- Without control, or without a dry bulb reading, the three outputs are off for the period. -/
theorem ZoneUnit.onTimes_off (h : ¬u.Controlled field ∨ u.climate.db.usable = none) :
    u.onTimes items field = (0, 0, 0) := by
  unfold ZoneUnit.onTimes
  split
  · rfl
  · next hdb =>
    have hc : ¬u.Controlled field := h.resolve_right (by rw [hdb]; nofun)
    rw [ZoneUnit.controlled_iff, Bool.not_eq_false] at hc
    exact if_pos hc

/-- Without a wet bulb reading HEAT alone takes an on-time. -/
theorem ZoneUnit.onTimes_dry {db : Int} (hc : u.Controlled field) (hdb : u.climate.db.usable = some db)
    (hwb : u.climate.wb.usable = none) :
    u.onTimes items field = (onTimeOf items.pulsePeriod (reported u.climate.dbTarget - db) items.pbHeat, 0, 0) := by
  unfold ZoneUnit.onTimes
  simp only [hdb, hwb, (u.controlled_iff field).1 hc, Bool.false_eq_true, if_false]

theorem ZoneUnit.onTimes_full {db wb : Int} (hc : u.Controlled field) (hdb : u.climate.db.usable = some db)
    (hwb : u.climate.wb.usable = some wb) :
    u.onTimes items field =
      (onTimeOf items.pulsePeriod (reported u.climate.dbTarget - db) items.pbHeat,
        onTimeOf items.pulsePeriod (reported u.climate.wbTarget - min wb db) items.pbHum,
        onTimeOf items.pulsePeriod (min wb db - reported u.climate.wbTarget) items.pbHum) := by
  unfold ZoneUnit.onTimes
  simp only [hdb, hwb, (u.controlled_iff field).1 hc, Bool.false_eq_true, if_false, Int.neg_sub]

end OnTimes

/-- Settles O38: the period takes the on-times of the zone as it stands, and the end of an on-time finishes its output. -/
theorem pulseRule : Obligations.PulseRule := by
  unfold Obligations.PulseRule
  intro s z hr p u o items period reading whole share out controlled started
  have hstart : ∀ {a b c : Nat}, o.pulseTimer.isSome = true → u.onTimes items p.fieldEnabled = (a, b, c) →
      exec (.pulsePeriodStart z) s = started a b c := fun {a b c} ht he => by
    have hx : exec (.pulsePeriodStart z) s = .next (s.moved (p.periodStart z)) :=
      congrArg Host.Outcome.next
        (State.expiry_moved (t := fun p => (p.unit z).output.pulseTimer) hr ht fun p => p.periodStart z)
    have hp : p.periodStart z =
        p.put z
          { u with
            output :=
              { o with
                pulseTimer := some (period * 1000)
                heat := .begin period (u.onTimes items p.fieldEnabled).1
                spray := .begin period (u.onTimes items p.fieldEnabled).2.1
                vent := .begin period (u.onTimes items p.fieldEnabled).2.2 } } := rfl
    rw [hx, hp, he]
    rfl
  have hend : ∀ output, (o.timed output).timer.isSome = true →
      exec (.onTimeExpiry z output) s = .next (s.moved (p.output z fun o => o.endOnTime output)) := fun output ht =>
    congrArg Host.Outcome.next
      (State.expiry_moved (t := fun p => ((p.unit z).output.timed output).timer) hr ht
        fun p => p.output z fun o => o.endOnTime output)
  refine ⟨fun ht => ⟨fun h => ?off, fun db heat hc hdb hheat =>
      ⟨fun hwb => ?dry, fun wb spray vent hwb hspray hvent => ?full⟩⟩,
    hend .heat, hend .spray, hend .vent⟩
  case off => exact hstart ht (ZoneUnit.onTimes_off items h)
  case dry =>
    refine hstart ht ((ZoneUnit.onTimes_dry items hc hdb hwb).trans ?_)
    rw [← onTimeOf_eq_of_share hheat.1 hheat.2]
    rfl
  case full =>
    refine hstart ht ((ZoneUnit.onTimes_full items hc hdb hwb).trans ?_)
    rw [← onTimeOf_eq_of_share hheat.1 hheat.2, ← onTimeOf_eq_of_share hspray.1 hspray.2,
      ← onTimeOf_eq_of_share hvent.1 hvent.2]
    rfl

end Sys2Proof.Machine
end

section
/-! SUPPORT. Proofs: the end of a dwell, of a proof delay and of the overrides, and the statement on them (R125, R128, R137,
R139). -/

namespace Sys2Proof.Machine

/-- A dwell ends: the fan runs the other way with its count at 0 (R125). -/
theorem FanState.endDwell_eq (f : FanState) (rev : Bool)
    (h : f.machine = if rev = true then .dwellToRev else .dwellToFwd) :
    f.endDwell =
      { f with
        machine := if rev = true then .runRev else .runFwd
        direction := if f.direction = .forward then .reverse else .forward
        reversalCount := 0
        dwellTimer := none } := by
  have hd : f.direction.toggle = if f.direction = .forward then .reverse else .forward := by cases f.direction <;> rfl
  unfold FanState.endDwell
  cases rev
  · rw [h, ← hd]; rfl
  · rw [h, ← hd]; rfl

/-- A zone in SAFE that a cause joins stays as it was but for its cause set: no cause has left it (R142). -/
theorem ZoneUnit.stillSafe_fan (u : ZoneUnit) :
    u.stillSafe { u.causes with fan := true } = { u with causes := { u.causes with fan := true } } := by
  simp [ZoneUnit.stillSafe]

/-- Every override becomes AUTO, and the lapse timer stops (R128). -/
theorem Plant.lapseExpiry_eq (p : Plant) :
    p.lapseExpiry =
      ({ p with
          lapse := none
          zones :=
            PerZone.tabulate fun y =>
              { p.unit y with
                output :=
                  { (p.unit y).output with
                    overrides := { heat := .auto, spray := .auto, vent := .auto, fanRun := .auto, fanDir := .auto } } } } :
        Plant).raise (.device .overrideLapsed) := by
  unfold Plant.lapseExpiry
  rw [Plant.eachZone_eq_tabulate (p := { p with lapse := none }) (g := fun y =>
    { p.unit y with output := { (p.unit y).output with overrides := {} } }) fun zs z hz => ?_]
  rw [Plant.overrides, Plant.output, Plant.zone_eq_put]
  rw [show Plant.unit { p with lapse := none, zones := zs } z = p.unit z from hz]

/-- Settles O39: each expiry is the one event of its timer, and the proof that is overdue joins the causes of a watched zone. -/
theorem fanAndLapseExpiries : Obligations.FanAndLapseExpiries := by
  unfold Obligations.FanAndLapseExpiries
  intro s z hr p u o
  refine ⟨fun rev hm ht => ?dwell, fun ht => ?proof, fun ht => ?lapse⟩
  case dwell =>
    have hx : exec (.dwellExpiry z) s = .next (s.moved (p.fan z FanState.endDwell)) :=
      congrArg Host.Outcome.next
        (State.expiry_moved (t := fun p => (p.unit z).output.fan.dwellTimer) hr ht fun p => p.fan z FanState.endDwell)
    have hp : p.fan z FanState.endDwell = p.put z { u with output := { o with fan := o.fan.endDwell } } := rfl
    rw [hx, hp, FanState.endDwell_eq _ rev hm]
  case proof =>
    intro v causes
    have hx : exec (.proofDelayExpiry z) s = .next (s.moved (p.proofExpiry z)) :=
      congrArg Host.Outcome.next
        (State.expiry_moved (t := fun p => (p.unit z).output.proofTimer) hr ht fun p => p.proofExpiry z)
    have hc : (p.put z v).Caused (p.proofExpiry z) z causes := by
      have h := (p.put z v).changeCauses_caused z fun c => { c with fan := true }
      rw [Plant.put_unit_self] at h
      exact h
    have hstate : ((p.put z v).ctx z).state = u.ctx.state := by rw [Plant.put_ctx_self]
    have hany : causes.any = true := by simp [causes, SafeCauses.any]
    rw [hx]
    refine ⟨fun hs => ?rests, fun hs => ?safe, fun hs => ?runs⟩
    case rests =>
      rw [hc.rests]
      rw [hstate]
      simp only [List.mem_cons, List.not_mem_nil, or_false] at hs
      rcases hs with hs | hs | hs | hs <;> rw [hs] <;> rfl
    case safe =>
      rw [hc.remains (hstate.trans hs) hany, Plant.put_unit_self, Plant.put_put]
      exact congrArg (fun w => Host.Outcome.next (s.moved (p.put z w))) v.stillSafe_fan
    case runs => exact congrArg (fun x => Host.Outcome.next (s.moved x)) (hc.enters (hstate.symm ▸ hs) hany).put_eq
  case lapse =>
    have hx : exec .overrideLapseExpiry s = .next (s.moved p.lapseExpiry) :=
      congrArg Host.Outcome.next (State.expiry_moved (t := fun p => p.lapse) hr ht Plant.lapseExpiry)
    rw [hx, Plant.lapseExpiry_eq]

end Sys2Proof.Machine
end

section
/-! SUPPORT. Proofs: the forms of RV, and the statement on it (R140, R141). -/

namespace Sys2Proof.Machine

/-! ### A zone in SAFE whose cause set changes -/

section InSafe

variable {p q : Plant} {z : Zone} {causes : SafeCauses}

/-- In SAFE the new set decides: the zone stays where a cause is left in it, and leaves for HELD otherwise (R140, R142). -/
theorem Plant.Caused.safe_eq (h : p.Caused q z causes) (hs : (p.ctx z).state = .safe) :
    q =
      if causes.any = true then p.put z ((p.unit z).stillSafe causes)
      else
        (p.put z ((p.unit z).released p.kiln.maximumDb p.holdIn)).enqueue
          (.checkpoint z ((p.unit z).released p.kiln.maximumDb p.holdIn).checkpoint) := by
  split
  · next hc => exact h.remains hs hc
  · next hc => exact h.leaves hs (Bool.eq_false_of_not_eq_true hc)

/-- The zone holds the new set, whether it stays in SAFE or leaves. -/
theorem Plant.Caused.safe_causes (h : p.Caused q z causes) (hs : (p.ctx z).state = .safe) :
    (q.unit z).causes = causes := by
  cases hc : causes.any with
  | true => rw [h.remains hs hc, Plant.put_unit_self]; rfl
  | false => rw [h.leaves hs hc, Plant.enqueue_unit, Plant.put_unit_self, SafeCauses.eq_none hc]; rfl

end InSafe

/-! ### RV -/

/-- OVERTEMP blocks RV unless a good reading stands at or below the maximum (R141). -/
theorem Plant.recoverBlocked_iff (p : Plant) (z : Zone) :
    p.recoverBlocked z = true ↔
      (p.unit z).causes.overtemp = true ∧
        ¬∃ x, (p.unit z).climate.db.status = .good ∧ (p.unit z).climate.db.value = some x ∧ x ≤ p.kiln.maximumDb := by
  unfold Plant.recoverBlocked
  rw [Bool.and_eq_true, Bool.not_eq_true', ← Bool.not_eq_true, ZoneUnit.dbSatisfies_iff]
  simp only [decide_eq_true_eq, exists_and_left]

/-- The cause set that RV leaves: FAN and OVERTEMP are out of it (R141). -/
def SafeCauses.recovered (c : SafeCauses) : SafeCauses := { c with fan := false, overtemp := false }

/-- RV changes the cause set as `SafeCauses.recovered` says, and then judges the fan's proof where FAN was in it. -/
theorem Plant.recover_eq (p : Plant) (z : Zone) :
    p.recover z =
      let q := p.changeCauses z SafeCauses.recovered
      if (p.unit z).causes.fan = true then
        if q.shouldRun z = true then q.startProof z else q.zone z fun u => { u with proofOverdue := false }
      else q := rfl

/-- Without FAN in the set, RV is the change of causes alone. -/
theorem Plant.recover_of_not_fan {p : Plant} {z : Zone} (hf : (p.unit z).causes.fan = false) :
    p.recover z = p.changeCauses z SafeCauses.recovered :=
  if_neg (ne_true_of_eq_false hf)

/-- With FAN in the set, the overdue mark goes, and the proof timer starts afresh where it should run (R126, R141). -/
theorem Plant.recover_of_fan {p q : Plant} {z : Zone} (hf : (p.unit z).causes.fan = true)
    (hq : p.changeCauses z SafeCauses.recovered = q) :
    p.recover z =
      q.put z
        { q.unit z with
          proofOverdue := false
          output :=
            { (q.unit z).output with
              proofTimer :=
                if q.shouldRun z = true then some ((p.items z).proofDelay * 1000)
                else (q.unit z).output.proofTimer } } := by
  have hitems : q.items z = p.items z := by
    rw [← hq, Plant.items, (Plant.Kept.changeCauses p z _).work, Plant.items]
  simp only [Plant.recover_eq, if_pos hf, hq, ← hitems]
  split <;> rfl

/-- What RV does to the fan's proof touches no cause. -/
theorem Plant.recover_causes (p : Plant) (z : Zone) :
    ((p.recover z).unit z).causes = ((p.changeCauses z SafeCauses.recovered).unit z).causes := by
  cases hf : (p.unit z).causes.fan with
  | false => rw [Plant.recover_of_not_fan hf]
  | true => rw [Plant.recover_of_fan hf rfl, Plant.put_unit_self]

theorem performRecover_undefined (p : Plant) {n : Nat} (h : 4 ≤ n) : performRecover n p = .refuse .badValue := by
  rw [performRecover, zoneOf_eq_none h]

theorem performRecover_refused {p : Plant} {z : Zone} (h : (p.ctx z).state ≠ .safe ∨ p.recoverBlocked z = true) :
    performRecover z.code p = .refuse .wrongState := by
  simp only [performRecover, zoneOf_code]
  rcases h with hs | hb
  · exact if_pos hs
  · rw [if_pos hb, ite_self]

theorem performRecover_performed {p : Plant} {z : Zone} (hs : (p.ctx z).state = .safe)
    (hb : ¬p.recoverBlocked z = true) :
    performRecover z.code p = .ok (p.recover z) (.causes ((p.recover z).unit z).causes) := by
  simp only [performRecover, zoneOf_code]
  rw [if_neg (not_not_intro hs), if_neg hb]

/-- Settles O27, from the change of causes of a zone in SAFE and what RV does to the fan's proof after it. -/
theorem recoverRule : Obligations.RecoverRule := by
  unfold Obligations.RecoverRule
  intro s env z h p u blocked left freed q
  refine ⟨fun n hn => ?undefined, fun hr => ?refused, fun hs hb => ?performed⟩
  case undefined => exact congrArg _ (State.take_refuse h env (performRecover_undefined p hn))
  case refused =>
    exact congrArg _ (State.take_refuse h env (performRecover_refused (hr.imp_right (p.recoverBlocked_iff z).2)))
  case performed =>
    have hc : p.Caused (p.changeCauses z SafeCauses.recovered) z left := p.changeCauses_caused z _
    have hq : p.changeCauses z SafeCauses.recovered = q := hc.safe_eq hs
    have hx : exec (.recover env z.code) s =
        .next (s.answered .rv env (settle p (p.recover z)) { status := .ok, content := .causes left }) := by
      have hp := performRecover_performed hs fun k => hb ((p.recoverBlocked_iff z).1 k)
      rw [Plant.recover_causes, hc.safe_causes hs] at hp
      exact congrArg _ (State.take_performed h env hp)
    rw [hx]
    refine ⟨fun hf => ?withoutFan, fun hf => ?withFan⟩
    case withoutFan => rw [Plant.recover_of_not_fan hf, hq]
    case withFan =>
      rw [Plant.recover_of_fan hf hq]
      rfl

end Sys2Proof.Machine
end

section
/-! SUPPORT. Proofs: a line's level seen, its debounce timer and its debounced level, and the statement on them (R148). -/

namespace Sys2Proof.Machine

/-- The debounce times as a table of R146 by their code. -/
theorem debounceTime_iff (n t : Nat) :
    ([0, 10, 20, 50, 100, 200, 500, 1000] : List Nat)[n]? = some t ↔ n ≤ 7 ∧ debounceTime n = t := by
  rcases Nat.lt_or_ge 7 n with h | h
  · rw [List.getElem?_eq_none (h)]
    exact ⟨nofun, fun k => absurd k.1 (Nat.not_le.2 h)⟩
  · interval_cases n <;> simp [debounceTime]

/-! ### The two events -/

theorem LineRole.isOutput_of_silent {role : LineRole} (h : role = .none ∨ role = .generalIn) :
    role.isOutput = false := by
  rcases h with rfl | rfl <;> rfl

theorem exec_pinChange_running {s : State} (h : s.mode = .running) (i : Fin 16) (high : Bool) :
    exec (.pinChange i high) s = .next (s.moved (s.plant.pinChange i high)) :=
  congrArg _ ((if_pos h).trans (State.event_moved h fun p => p.pinChange i high))

theorem exec_debounceTimerExpiry_running {s : State} (h : s.mode = .running) (i : Fin 16) :
    exec (.debounceTimerExpiry i) s = .next (s.moved (s.plant.debounceExpiry i)) :=
  congrArg _ (State.event_moved h fun p => p.debounceExpiry i)

namespace Plant

variable {p : Plant} {i : Fin 16} {high : Bool}

/-! ### A pin that changes -/

/-- An output line, a line that is settling, and a line whose level stays only see the level. -/
theorem pinChange_seen
    (h : (p.lineItems i).role.isOutput = true ∨ (p.lines.get i).settled = false ∨ high = (p.lines.get i).external) :
    p.pinChange i high = p.putLine i { p.lines.get i with external := high } := by
  refine if_pos ?_
  rcases h with h | h | h <;> simp [h]

/-- A settled input compares its new level with its debounced one. -/
theorem pinChange_compared (ho : (p.lineItems i).role.isOutput = false) (hs : (p.lines.get i).settled = true)
    (hx : high ≠ (p.lines.get i).external) :
    p.pinChange i high =
      if (p.lineItems i).polarity.convert high = (p.lines.get i).debounced then
        p.putLine i { p.lines.get i with external := high, timer := none }
      else if (p.lineItems i).debounce = 0 then p.delivered i high ((p.lineItems i).polarity.convert high)
      else
        p.putLine i
          { p.lines.get i with external := high, timer := some (debounceTime (p.lineItems i).debounce) } := by
  have hn : ((p.lineItems i).role.isOutput || high == (p.lines.get i).external || !(p.lines.get i).settled) = false := by
    rw [ho, beq_eq_false_iff_ne.2 hx, hs]
    rfl
  rw [← takeLevel_putLine]
  unfold pinChange
  dsimp only
  rw [hn, if_neg Bool.false_ne_true]
  simp only [line_eq_putLine, putLine_get, putLine_putLine]

/-! ### A role that delivers nothing -/

/-- A line of a role that delivers nothing takes its new level, and nothing follows. -/
theorem delivered_silent (h : (p.lineItems i).role = .none ∨ (p.lineItems i).role = .generalIn) (level : Bool) :
    p.delivered i high level = p.levelTaken i high level :=
  delivered_quiet rfl fun _ => deliver_none h

end Plant

/-- Settles O40: what a pin that changes leaves by the comparison of R148, and the level taken by a role that delivers nothing. -/
theorem debounceRule : Obligations.DebounceRule := by
  unfold Obligations.DebounceRule
  intro s i high p c l active output became
  have hitems : p.lineItems i = c := rfl
  have hactive (x : Bool) : c.polarity.convert x = active x := c.polarity.convert_eq_ite x
  have hinput (h : ¬output) : c.role.isOutput = false := Bool.eq_false_iff.2 fun k => h ((LineRole.isOutput_iff _).1 k)
  refine ⟨fun hq => congrArg _ (if_neg hq), fun hr => ⟨fun h => ?seen, fun ho hs hx => ?compared, fun hrole ht => ?expires⟩⟩
  case seen =>
    rw [exec_pinChange_running hr, Plant.pinChange_seen (h.imp_left (LineRole.isOutput_iff _).2)]
    rfl
  case compared =>
    rw [exec_pinChange_running hr, Plant.pinChange_compared (hinput ho) hs hx, hitems, hactive]
    refine ⟨fun he => ?agrees, fun hne hd t ht => ?restarts, fun hne hd hrole => ?atOnce⟩
    case agrees => rw [if_pos he]; rfl
    case restarts => rw [if_neg hne, if_neg hd, ((debounceTime_iff _ t).1 ht).2]; rfl
    case atOnce => rw [if_neg hne, if_pos hd, Plant.delivered_silent hrole]; rfl
  case expires =>
    rw [exec_debounceTimerExpiry_running hr, Plant.debounceExpiry_delivers (LineRole.isOutput_of_silent hrole) ht,
      Plant.delivered_silent hrole, hitems, hactive]
    rfl

end Sys2Proof.Machine
end

section
/-! SUPPORT. Proofs: CW LINE, its refusals and the line as it is configured, and the statement on it (R146, R148 to R150,
R176). -/

namespace Sys2Proof.Machine

/-! ### The item (R146) -/

/-- CW LINE passes check 1 with the item that its fields spell; its debounce code alone is clamped (R176). -/
theorem lineOf_raw {c : LineConfig} {debounce : Nat} (h : c.debounce = min 7 debounce) :
    lineOf (c.raw debounce) = some (c, decide (7 < debounce)) := by
  have hrole : lineRoleOf (c.raw debounce).role = some c.role := by
    unfold LineConfig.raw
    cases c.role <;> rfl
  have hzone : zoneOf (c.raw debounce).zone = some c.zone := by
    unfold LineConfig.raw
    cases c.zone <;> rfl
  have hpolarity : polarityOf (c.raw debounce).polarity = some c.polarity := by
    unfold LineConfig.raw
    cases c.polarity <;> rfl
  have hsafe : activeOf (c.raw debounce).safeLevel = some c.safeActive := by
    unfold LineConfig.raw
    cases c.safeActive <;> rfl
  have hkeep : yesNoOf (c.raw debounce).keep = some c.keep := by
    unfold LineConfig.raw
    cases c.keep <;> rfl
  have hcode : clampedNat 0 7 debounce = (c.debounce, decide (7 < debounce)) := by
    rw [h]
    refine Prod.ext (Nat.zero_max _) ?_
    rw [Bool.eq_iff_iff, decide_eq_true_iff, ← not_iff_not, Bool.not_eq_true, clampedNat_kept (Nat.zero_le 7)]
    omega
  unfold lineOf
  rw [hrole, hzone, hpolarity, hsafe, hkeep, show (c.raw debounce).debounce = debounce from rfl, hcode]

theorem lineRoleOf_eq_none {n : Nat} (h : 7 < n) : lineRoleOf n = none := by
  obtain ⟨m, rfl⟩ := Nat.exists_eq_add_of_le' h
  rfl

theorem polarityOf_eq_none {n : Nat} (h : 1 < n) : polarityOf n = none := by
  obtain ⟨m, rfl⟩ := Nat.exists_eq_add_of_le' h
  rfl

theorem activeOf_eq_none {n : Nat} (h : 1 < n) : activeOf n = none := by
  obtain ⟨m, rfl⟩ := Nat.exists_eq_add_of_le' h
  rfl

theorem yesNoOf_eq_none {n : Nat} (h : 1 < n) : yesNoOf n = none := (yesNoOf_eq n).trans (if_neg (Nat.not_le.2 h))

/-- A field that is read is within the bound above which nothing is. -/
theorem le_of_read {α : Type} {f : Nat → Option α} {k n : Nat} {x : α} (hf : k < n → f n = none) (h : f n = some x) :
    n ≤ k :=
  Nat.le_of_not_lt fun hn => Option.some_ne_none x (h.symm.trans (hf hn))

theorem lineOf_undefined {r : RawLine} (h : ¬r.Defined) : lineOf r = none := by
  unfold lineOf
  split
  · next role zone polarity safe keep hrole hzone hpolarity hsafe hkeep =>
    exact absurd ⟨le_of_read lineRoleOf_eq_none hrole, le_of_read zoneOf_eq_none hzone,
      le_of_read polarityOf_eq_none hpolarity, le_of_read activeOf_eq_none hsafe, le_of_read yesNoOf_eq_none hkeep⟩ h
  · rfl

/-! ### The refusal (R149) -/

theorem LineConfig.reconfigures_iff (old new : LineConfig) :
    old.reconfigures new = true ↔
      ¬(old.role = new.role ∧ old.zone = new.zone ∧ old.polarity = new.polarity ∧ old.debounce = new.debounce) := by
  simp only [LineConfig.reconfigures, Bool.or_eq_true, bne_iff_ne, ne_eq, not_and_or, or_assoc]

theorem LineRole.guarded_iff (r : LineRole) : r.guarded = true ↔ r ∈ [.door, .fanProof, .holdIn] := by
  cases r <;> simp [LineRole.guarded]

theorem Plant.lineBlocked_iff (p : Plant) (i : Fin 16) (new : LineConfig) :
    p.lineBlocked i new = true ↔
      ((p.lineItems i).role.guarded = true ∨ new.role.guarded = true) ∧ (p.lineItems i).reconfigures new = true ∧
        ∃ z, (p.ctx z).state.guards = true := by
  simp [Plant.lineBlocked, Zone.mem_order, and_assoc]

/-! ### A delivery while every zone is at rest -/

/-- Every zone is IDLE, DONE or RESUME_PENDING. -/
def Plant.Resting (p : Plant) : Prop := ∀ z, (p.ctx z).state.guards = false

theorem ZoneState.of_not_guards {st : ZoneState} (h : st.guards = false) :
    st.watched = false ∧ st ≠ .starting ∧ st ≠ .held ∧ st.phase? = none := by
  cases st with
  | idle | done | resumePending => exact ⟨rfl, nofun, nofun, rfl⟩
  | starting | phase | held | safe => cases h

namespace Plant

variable {p before after : Plant} {i : Fin 16}

/-- An operation that passes over every zone leaves the plant. -/
theorem eachZone_passed {f : Plant → Zone → Plant} (h : ∀ z, f p z = p) : p.eachZone f = p := by
  rw [eachZone_eq, h, h, h, h]

theorem Resting.evaluateStart (h : p.Resting) (z : Zone) : p.evaluateStart z = p :=
  evaluateStart_other (ZoneState.of_not_guards (h z)).2.1

theorem Resting.deliverDoor (h : p.Resting) : p.deliverDoor = p := by
  have hcauses : (p.eachZone fun q z => q.changeCauses z fun c => { c with door := p.doorOpen }) = p :=
    eachZone_passed fun z => (p.changeCauses_caused z _).rests (ZoneState.of_not_guards (h z)).1
  unfold Plant.deliverDoor
  rw [hcauses]
  exact eachZone_passed h.evaluateStart

theorem Resting.holdInActivation (h : p.Resting) : p.holdInActivation = p := by
  refine eachZone_passed fun z => ?_
  obtain ⟨-, -, hheld, hphase⟩ := ZoneState.of_not_guards (h z)
  exact (p.joinHold_gained z (fun h => { h with line := true }) (Bool.or_true _)).rests hheld hphase

theorem InStep.guards {z : Zone} (h : p.InStep z) : (p.ctx z).state.guards = true := by
  obtain ⟨-, -, hs | ⟨hs | hs, -⟩⟩ := h <;> rw [hs] <;> rfl

/-- The lockstep set of a plant at rest is empty. -/
theorem Resting.judgeRelease (h : p.Resting) : p.judgeRelease = p :=
  p.judgeRelease_released.stays (.inl fun z hz => Bool.false_ne_true ((h z).symm.trans hz.guards))

theorem Resting.holdInRelease (h : p.Resting) : p.holdInRelease = p := by
  have hholds : (p.eachZone fun q z =>
      if (q.ctx z).holds.line then q.leaveHold z fun h => { h with line := false } else q) = p := by
    refine eachZone_passed fun z => ?_
    obtain ⟨-, -, hheld, hphase⟩ := ZoneState.of_not_guards (h z)
    split
    · exact (p.leaveHold_left z _).rests hheld hphase
    · rfl
  unfold Plant.holdInRelease
  rw [hholds, h.judgeRelease]

/-- A debounced change that presses no button is heard by no zone at rest, and a role that R149 does not guard has no other
users (R150). -/
theorem deliver_unheard {role : LineRole} (h : role.guarded = true → after.Resting) (zone : Zone) :
    before.deliver after role zone false = after := by
  cases role with
  | none | alarmOut | generalIn | generalOut | startButton => rfl
  | door => exact (congrArg (ite _ · _) (h rfl).deliverDoor).trans (ite_self _)
  | fanProof => exact (h rfl).evaluateStart zone
  | holdIn =>
    unfold deliver
    dsimp only
    split
    · exact (h rfl).holdInActivation
    · exact (h rfl).holdInRelease
    · rfl

/-! ### The line as it is configured (R148, R149) -/

/-- A line that settles takes its debounce time, unless its debounce code is 0. -/
theorem beginSettling_timed (h : (p.lineItems i).debounce ≠ 0) :
    p.beginSettling i =
      p.putLine i
        { p.lines.get i with debounced := false, settled := false, timer := some (debounceTime (p.lineItems i).debounce) } :=
  if_neg h

theorem takeLevel_eq_delivered (p : Plant) (i : Fin 16) (level : Bool) :
    p.takeLevel i level = p.delivered i (p.lines.get i).external level := by
  rw [← takeLevel_putLine]
  congr 1
  unfold putLine
  rw [Table.set_get_self]

/-- With debounce code 0 the level is taken in the same event, and presses no button, since the line was not settled. -/
theorem beginSettling_atOnce (hd : (p.lineItems i).debounce = 0)
    (h : (p.lineItems i).role.guarded = true → p.Resting) :
    p.beginSettling i =
      p.putLine i
        { p.lines.get i with
          debounced := (p.lineItems i).polarity.convert (p.lines.get i).external, settled := true, timer := none } := by
  refine (if_pos hd).trans ?_
  rw [takeLevel_eq_delivered, delivered_quiet rfl fun _ => ?_]
  · rw [levelTaken, line_eq_putLine, putLine_putLine, putLine_get]
  · rw [line_eq_putLine, putLine_get]
    refine deliver_unheard ?_ _
    exact h

theorem configureLine_same {new : LineConfig} (h : ¬(p.lineItems i).reconfigures new = true) :
    p.configureLine i new = p.putLineItems i new := if_pos (by rw [Bool.eq_false_iff.2 h]; rfl)

theorem putLine_putLineItems (p : Plant) (i j : Fin 16) (l : LineState) (c : LineConfig) :
    (p.putLine i l).putLineItems j c = (p.putLineItems j c).putLine i l := rfl

/-- The level that leaves changes nothing else, and the line settles under its new fields where it is an input. -/
theorem configureLine_changed {new : LineConfig} (hr : (p.lineItems i).reconfigures new = true)
    (h : (p.lineItems i).role.guarded = true → p.Resting) :
    let quiet := (p.putLineItems i new).putLine i
      { p.lines.get i with latch := false, debounced := false, settled := false, timer := none }
    p.configureLine i new = if new.role.isOutput then quiet else quiet.beginSettling i := by
  unfold configureLine
  dsimp only
  rw [hr, Bool.not_true, if_neg Bool.false_ne_true, deliver_unheard (by exact h)]
  by_cases hl : (!(p.lineItems i).role.isOutput && (p.lines.get i).debounced) = true
  · rw [if_pos hl]
    simp only [line_eq_putLine, putLine_get, putLine_putLine, putLine_putLineItems]
  · rw [if_neg hl]
    simp only [line_eq_putLine, putLine_get, putLine_putLine, putLine_putLineItems]

/-- The line just configured has its new fields. -/
theorem putLineItems_lineItems (p : Plant) (i : Fin 16) (c : LineConfig) (l : LineState) :
    ((p.putLineItems i c).putLine i l).lineItems i = c := Table.get_set_self _ _ _

/-- An output line does not settle. -/
theorem configureLine_output {new : LineConfig} (hr : (p.lineItems i).reconfigures new = true)
    (h : (p.lineItems i).role.guarded = true → p.Resting) (ho : new.role.isOutput = true) :
    p.configureLine i new =
      (p.putLineItems i new).putLine i
        { p.lines.get i with latch := false, debounced := false, settled := false, timer := none } :=
  (configureLine_changed hr h).trans (if_pos ho)

/-- An input line with a debounce time settles for it. -/
theorem configureLine_timed {new : LineConfig} (hr : (p.lineItems i).reconfigures new = true)
    (h : (p.lineItems i).role.guarded = true → p.Resting) (ho : ¬new.role.isOutput = true) (hd : new.debounce ≠ 0) :
    p.configureLine i new =
      (p.putLineItems i new).putLine i
        { p.lines.get i with
          latch := false, debounced := false, settled := false, timer := some (debounceTime new.debounce) } := by
  refine ((configureLine_changed hr h).trans (if_neg ho)).trans ?_
  rw [beginSettling_timed (by rwa [putLineItems_lineItems]), putLineItems_lineItems, putLine_putLine, putLine_get]

/-- An input line with debounce code 0 takes its level at once. -/
theorem configureLine_atOnce {new : LineConfig} (hr : (p.lineItems i).reconfigures new = true)
    (h : (p.lineItems i).role.guarded = true ∨ new.role.guarded = true → p.Resting) (ho : ¬new.role.isOutput = true)
    (hd : new.debounce = 0) :
    p.configureLine i new =
      (p.putLineItems i new).putLine i
        { p.lines.get i with
          latch := false
          debounced := new.polarity.convert (p.lines.get i).external
          settled := true
          timer := none } := by
  refine ((configureLine_changed hr fun hg => h (.inl hg)).trans (if_neg ho)).trans ?_
  rw [beginSettling_atOnce (by rwa [putLineItems_lineItems]) (by rw [putLineItems_lineItems]; exact fun hg => h (.inr hg)),
    putLineItems_lineItems, putLine_putLine, putLine_get]

end Plant

/-! ### CW LINE -/

theorem performCwLine_undefined (p : Plant) {n : Nat} {r : RawLine} (h : 16 ≤ n ∨ ¬r.Defined) :
    performCwLine n r p = .refuse .badValue := by
  unfold performCwLine
  rcases h with h | h
  · rw [indexOf_eq_none h]
  · rw [lineOf_undefined h]
    cases indexOf 16 n <;> rfl

section

variable {p : Plant} {i : Fin 16} {c : LineConfig} {debounce : Nat}

theorem performCwLine_refused (hc : c.debounce = min 7 debounce) (hb : p.lineBlocked i c = true) :
    performCwLine i.val (c.raw debounce) p = .refuse .wrongState := by
  unfold performCwLine
  rw [indexOf_val, lineOf_raw hc]
  exact if_pos hb

theorem performCwLine_performed (hc : c.debounce = min 7 debounce) (hb : ¬p.lineBlocked i c = true) :
    performCwLine i.val (c.raw debounce) p =
      .performed ((p.configureLine i c).enqueue (.host .configuration))
        { status := if 7 < debounce then .clamped else .ok, stores := true } := by
  have hstatus : writeStatus (decide (7 < debounce)) = if 7 < debounce then .clamped else .ok := by simp [writeStatus]
  unfold performCwLine
  rw [indexOf_val, lineOf_raw hc, ← hstatus]
  exact if_neg hb

end

/-- Settles O19: the refusals of R149 and R176, and the line as it is configured, heard by no other part of the plant. -/
theorem lineItemsWriteRule : Obligations.LineItemsWriteRule := by
  unfold Obligations.LineItemsWriteRule
  intro s env i c debounce h hc old same touches someRuns answer written line turned
  have hchanges : old.reconfigures c = true ↔ ¬same := old.reconfigures_iff c
  have htouches : old.role.guarded = true ∨ c.role.guarded = true ↔ touches :=
    or_congr old.role.guarded_iff c.role.guarded_iff
  have hblocked : s.plant.lineBlocked i c = true ↔ touches ∧ ¬same ∧ someRuns := by
    rw [s.plant.lineBlocked_iff, ← hchanges, ← htouches]
    rfl
  have performed {q : Plant} (hb : ¬(touches ∧ ¬same ∧ someRuns)) (hq : s.plant.configureLine i c = q) :
      exec (.cwLine env i.val (c.raw debounce)) s =
        .next (s.answered .cw env (settle s.plant (q.enqueue (.host .configuration))) answer) := by
    have hp := performCwLine_performed hc fun k => hb (hblocked.1 k)
    rw [hq] at hp
    exact congrArg _ (State.take_performed h env hp)
  refine ⟨fun n r hn => ?undefined, fun ht hs hr => ?refused, fun hs => ?same, fun hs hn => ?changed⟩
  case undefined => exact congrArg _ (State.take_refuse h env (performCwLine_undefined s.plant hn))
  case refused => exact congrArg _ (State.take_refuse h env (performCwLine_refused hc (hblocked.2 ⟨ht, hs, hr⟩)))
  case same => exact performed (fun k => k.2.1 hs) (Plant.configureLine_same fun k => hchanges.1 k hs)
  case changed =>
    have hfree : ¬(touches ∧ ¬same ∧ someRuns) := fun ⟨ht, _, hr⟩ => hn ⟨ht, hr⟩
    have hrests (hg : old.role.guarded = true ∨ c.role.guarded = true) : s.plant.Resting := fun z =>
      Bool.eq_false_iff.2 fun hz => hn ⟨htouches.1 hg, z, hz⟩
    have houtput : c.role.isOutput = true ↔ c.role ∈ [.alarmOut, .generalOut] := by
      rw [LineRole.isOutput_iff]
      simp
    refine ⟨fun ho => ?output, fun ho hd => ?timed, fun ho hd => ?atOnce⟩
    case output =>
      exact performed hfree
        (Plant.configureLine_output (hchanges.2 hs) (fun hg => hrests (.inl hg)) (houtput.2 ho))
    case timed =>
      exact ⟨_, (debounceTime_iff _ _).2 ⟨hc ▸ Nat.min_le_left 7 debounce, rfl⟩, performed hfree
        (Plant.configureLine_timed (hchanges.2 hs) (fun hg => hrests (.inl hg)) (fun k => ho (houtput.1 k)) hd)⟩
    case atOnce =>
      have hq := Plant.configureLine_atOnce (hchanges.2 hs) hrests (fun k => ho (houtput.1 k)) hd
      rw [Polarity.convert_eq] at hq
      exact performed hfree hq

end Sys2Proof.Machine
end

section
/-! SUPPORT. Proofs: the alert set and the store write queue through every operation on the plant (R158, R159, R179, R180). -/

namespace Sys2Proof.Machine

/-! ### The host items of a queue -/

/-- Checkpoint items that were queued leave the number of host items. -/
theorem StoreQueue.Grown.hosts_eq {q r : StoreQueue} (h : q.Grown r) : r.hosts = q.hosts := by
  unfold StoreQueue.hosts
  rw [h.hosts]
  cases hq : q.inFlight with
  | some w => rw [h.flight w hq]
  | none =>
    rcases h.fresh hq with ⟨hr, -⟩ | ⟨z, c, hr⟩
    · rw [hr]
    · rw [hr]

theorem Plant.enqueue_host_hosts (p : Plant) (x : SectionName) :
    (p.enqueue (.host x)).queue.hosts = p.queue.hosts + 1 := by
  unfold Plant.enqueue
  split
  · next h => simp only [StoreQueue.hosts, h, Working.begin]; omega
  · simp only [StoreQueue.hosts, hostItems_append, hostItems, List.length_append, List.length_singleton]; omega

theorem Plant.enqueue_host_formed {p : Plant} (h : p.queue.Formed) (x : SectionName) :
    (p.enqueue (.host x)).queue.Formed := by
  unfold Plant.enqueue
  split
  · exact ⟨h.zones, nofun⟩
  · next w hw =>
    refine ⟨?_, fun e => ?_⟩
    · rw [checkpointZones_append, checkpointZones, checkpointZones, List.append_nil]
      exact h.zones
    · rw [hw] at e; cases e

/-! ### The plant -/

/-- What is done to the plant keeps the alert set in rising rank and the queue in its form, and queues `n` host items. -/
structure Plant.Queues (n : Nat) (p q : Plant) : Prop where
  sorted : AlertsSorted p.alerts → AlertsSorted q.alerts
  formed : p.queue.Formed → q.queue.Formed
  hosts : q.queue.hosts = p.queue.hosts + n

theorem Plant.Kept.queues {p q : Plant} (h : p.Kept q) : p.Queues 0 q := ⟨h.sorted, h.queue.formed, h.queue.hosts_eq⟩

namespace Plant.Queues

variable {n : Nat} {p q r : Plant}

/-- What leaves the alert set and the queue as they were. -/
theorem same (ha : q.alerts = p.alerts := by rfl) (hq : q.queue = p.queue := by rfl) : p.Queues 0 q :=
  ⟨fun h => ha ▸ h, fun h => hq ▸ h, by rw [hq]; rfl⟩

theorem refl (p : Plant) : p.Queues 0 p := .same

theorem trans (h : p.Queues 0 q) (k : q.Queues n r) : p.Queues n r :=
  ⟨k.sorted ∘ h.sorted, k.formed ∘ h.formed, by rw [k.hosts, h.hosts]; rfl⟩

theorem ite {c : Prop} [Decidable c] (h : p.Queues n q) (k : p.Queues n r) : p.Queues n (if c then q else r) := by
  split <;> assumption

theorem foldl {α : Type} {f : Plant → α → Plant} (hf : ∀ (p : Plant) (x : α), p.Queues 0 (f p x)) (xs : List α)
    (p : Plant) : p.Queues 0 (xs.foldl f p) := by
  induction xs generalizing p with
  | nil => exact .refl p
  | cons x xs ih => exact (hf p x).trans (ih _)

theorem eachZone {f : Plant → Zone → Plant} (hf : ∀ (p : Plant) (z : Zone), p.Queues 0 (f p z)) (p : Plant) :
    p.Queues 0 (p.eachZone f) := .foldl hf _ p

theorem raise {a : Alert} (h : p.Queues 0 q) : p.Queues 0 (q.raise a) := h.trans (Plant.Kept.raise q a).queues

theorem raiseIf {b : Bool} {a : Alert} (h : p.Queues 0 q) : p.Queues 0 (q.raiseIf b a) := .ite h.raise h

/-- A host item queued behind what is done to the plant (R159). -/
theorem enqueueHost (h : p.Queues 0 q) (x : SectionName) : p.Queues 1 (q.enqueue (.host x)) :=
  h.trans
    ⟨fun k => (Plant.enqueue_alerts q _).symm ▸ k, fun k => Plant.enqueue_host_formed k x, Plant.enqueue_host_hosts q x⟩

theorem zone (p : Plant) (z : Zone) (f : ZoneUnit → ZoneUnit) : p.Queues 0 (p.zone z f) := .same

theorem pass (p : Plant) (z : Zone) (f : PassState → PassState) : p.Queues 0 (p.pass z f) := zone p z _

theorem climate (p : Plant) (z : Zone) (f : ClimateState → ClimateState) : p.Queues 0 (p.climate z f) := zone p z _

theorem output (p : Plant) (z : Zone) (f : OutputState → OutputState) : p.Queues 0 (p.output z f) := zone p z _

theorem overrides (p : Plant) (z : Zone) (f : OverrideTable → OverrideTable) : p.Queues 0 (p.overrides z f) := output p z _

theorem line (p : Plant) (i : Fin 16) (f : LineState → LineState) : p.Queues 0 (p.line i f) := .same

/-! ### Passes and the arbiter -/

theorem endPass (p : Plant) (z : Zone) : p.Queues 0 (p.endPass z) := by
  have hq : p.Queues 0 ((p.pass z fun s => { s with progress := none }).replaceAggregate z) := by
    rw [Plant.passAggregate_eq]
    exact .raiseIf .same
  exact .ite (hq.trans (Plant.Kept.evaluateStart _ z).queues) (hq.trans (Plant.Kept.evaluate _ z).queues)

theorem startPass (p : Plant) (z : Zone) : p.Queues 0 (p.startPass z) := .ite (endPass p z) (pass p z _)

theorem completePass (p : Plant) (z : Zone) : p.Queues 0 (p.completePass z) :=
  .ite (((endPass p z).trans (pass _ z _)).trans (startPass _ z)) (endPass p z)

theorem movePast (p : Plant) (z : Zone) : p.Queues 0 (p.movePast z) := by
  unfold Plant.movePast
  split
  · exact .refl p
  · exact .ite (completePass p z) (pass p z _)

theorem grant (fuel : Nat) (p : Plant) : p.Queues 0 (p.grant fuel) := by
  induction fuel generalizing p with
  | zero => exact .refl p
  | succ fuel ih =>
    unfold Plant.grant
    refine .ite (.refl p) ?_
    split
    · exact .refl p
    · split
      · exact .same
      · exact .refl p
    · split
      · exact .refl p
      · split
        · exact (completePass p _).trans (ih _)
        · exact .same

theorem arbitrate (p : Plant) : p.Queues 0 p.arbitrate := grant 9 p

theorem judge (p : Plant) (z : Zone) (i : Fin 64) (kind : ProbeKind) (raw : Int) : p.Queues 0 (p.judge z i kind raw) := by
  unfold Plant.judge
  dsimp only
  split
  · exact .refl p
  · split
    · exact .ite (.raise .same) .same
    · exact .ite (.raise .same) .same
    · exact .same

theorem handOver (p : Plant) (m : Measurement) (raw : Int) : p.Queues 0 (p.handOver m raw) := by
  unfold Plant.handOver
  split
  · exact (Plant.Queues.ite (.refl p) (judge p _ _ _ _)).trans ((pass _ _ _).trans (movePast _ _))
  · exact .ite .same .same

theorem completeMeasurement (p : Plant) (samples : List Int) : p.Queues 0 (p.completeMeasurement samples) := by
  unfold Plant.completeMeasurement
  split
  · exact .refl p
  · next m _ =>
    have hq : p.Queues 0 { p with frontEnd := { p.frontEnd with inFlight := none }, mux := p.straps.muxOff p.mux } :=
      .same
    exact (hq.trans (handOver _ m _)).trans (arbitrate _)

theorem markStale (p : Plant) (i : Fin 64) (f : Requester → Bool) : p.Queues 0 (p.markStale i f) := by
  unfold Plant.markStale
  split
  · exact .ite .same (.refl p)
  · exact .refl p

theorem passExpiry (p : Plant) (z : Zone) : p.Queues 0 (p.passExpiry z) :=
  have hq := pass p z fun s => { s with timer := Timer.minutes (p.items z).passInterval }
  .ite (hq.trans (pass _ z _)) ((hq.trans (startPass _ z)).trans (arbitrate _))

/-! ### Lines -/

theorem takeLevel (p : Plant) (i : Fin 16) (level : Bool) : p.Queues 0 (p.takeLevel i level) :=
  have hq := line p i fun l => { l with debounced := level, settled := true, timer := none }
  .ite (hq.trans (Plant.Kept.deliver p _ _ _ _).queues) hq

theorem beginSettling (p : Plant) (i : Fin 16) : p.Queues 0 (p.beginSettling i) :=
  have hq := line p i fun l =>
    { l with debounced := false, settled := false, timer := some (debounceTime (p.lineItems i).debounce) }
  .ite (hq.trans (takeLevel _ i _)) hq

theorem pinChange (p : Plant) (i : Fin 16) (high : Bool) : p.Queues 0 (p.pinChange i high) :=
  have hq := line p i fun l => { l with external := high }
  .ite hq (.ite (hq.trans (line _ i _)) (.ite (hq.trans (takeLevel _ i _)) (hq.trans (line _ i _))))

theorem debounceExpiry (p : Plant) (i : Fin 16) : p.Queues 0 (p.debounceExpiry i) := .ite (.refl p) (takeLevel p i _)

/-- The line reconfigured, from its latch cleared to its settling begun (R149). -/
theorem configureLine (p : Plant) (i : Fin 16) (c : LineConfig) : p.Queues 0 (p.configureLine i c) := by
  have hq := line p i fun l => { l with latch := false }
  have hleft := fun b : Bool => Plant.Queues.ite (c := b = true)
    ((hq.trans (line _ i fun l => { l with debounced := false })).trans
      (Plant.Kept.deliver (p.line i fun l => { l with latch := false }) _ (p.lineItems i).role (p.lineItems i).zone
        false).queues) hq
  have hquiet : ∀ x : Plant, p.Queues 0 x → p.Queues 0 ((x.putLineItems i c).line i fun l =>
      { l with debounced := false, settled := false, timer := none }) := fun x h => h.trans .same
  exact .ite .same (.ite (hquiet _ (hleft _)) ((hquiet _ (hleft _)).trans (beginSettling _ i)))

/-! ### Starts, samples and expiries -/

theorem delayedExpiry (p : Plant) : p.Queues 0 p.delayedExpiry :=
  .trans (q := { p with delayedStart := none }) .same (Plant.Kept.startEvent _ _ _).queues

theorem sampleComplete (p : Plant) (z : Zone) (db wb : Int) : p.Queues 0 (p.sampleComplete z db wb) :=
  (climate p z _).trans ((Plant.Kept.changeCauses _ z _).trans (.evaluateStart _ z)).queues

theorem reportRamp (p q : Plant) (z : Zone) : q.Queues 0 (p.reportRamp q z) :=
  .ite (Plant.Kept.rampComplete q z).queues (.refl q)

theorem rampExpiry (p : Plant) (z : Zone) : p.Queues 0 (p.rampExpiry z) := (climate p z _).trans (reportRamp p _ z)

theorem proofExpiry (p : Plant) (z : Zone) : p.Queues 0 (p.proofExpiry z) :=
  (zone p z _).trans (Plant.Kept.changeCauses _ z fun c => { c with fan := true }).queues

theorem lapseExpiry (p : Plant) : p.Queues 0 p.lapseExpiry :=
  have hq : p.Queues 0 { p with lapse := none } := .same
  (hq.trans (eachZone (fun q z => overrides q z fun _ => {}) _)).raise

/-! ### The end of an event, and a restart -/

/-- No alert is raised and nothing is queued where the levels follow (R126, R129, R151, R179). -/
theorem settle (before q : Plant) : q.Queues 0 (Machine.settle before q) := by
  unfold Machine.settle
  rw [Plant.eachZone_settleProof]
  exact .same

theorem settlePins (p : Plant) : p.Queues 0 p.settlePins := .same

theorem markUnreachable (p : Plant) : p.Queues 0 p.markUnreachable := .raiseIf .same

theorem startTimers (p : Plant) (z : Zone) : p.Queues 0 (p.startTimers z) := zone p z _

theorem settleLines (p : Plant) : p.Queues 0 p.settleLines := .foldl (fun q i => .ite (.refl q) (beginSettling q i)) _ p

/-- What a restart makes of the plant that a reset has left (R164). -/
theorem restart (p : Plant) (straps : Straps) : p.quiet.Queues 0 (p.restart straps) := by
  have hbase : p.quiet.Queues 0 { p.quiet with straps := straps, work := p.store.load } := .same
  have halerted := (((hbase.raiseIf (b := p.store.defaulted) (a := .device .storeDefaulted)).trans
    (markUnreachable _)).raise (a := .device .resetSeen))
  have hzoned := (halerted.trans (eachZone startTimers _)).trans
    (eachZone (fun q z => (Plant.Kept.restoreZone q z).queues) _)
  exact (((hzoned.trans (settleLines _)).trans (eachZone startPass _)).trans (arbitrate _)).trans (settlePins _)

end Plant.Queues

end Sys2Proof.Machine
end

section
/-! SUPPORT. Proofs: the alert set and the store write queue through what the owner of every request does (R159, R179, R181). -/

namespace Sys2Proof.Machine

/-! ### What the requests do to the plant -/

namespace Plant.Queues

theorem takeMaximum (p : Plant) (z : Zone) : p.Queues 0 (p.takeMaximum z) := by
  have hreform : p.Queues 0 (p.reform z) := by
    unfold Plant.reform
    split
    · exact (Plant.Kept.formSetpoints p z _).queues
    · exact .refl p
  have hq := hreform.trans (climate _ z fun c => c.clampTo p.kiln.maximumDb)
  exact (Plant.Queues.ite (hq.trans (climate _ z _)) hq).trans (reportRamp p _ z)

theorem takeSafeFan (p : Plant) (z : Zone) : p.Queues 0 (p.takeSafeFan z) := .ite (Plant.Kept.fan p z _).queues (.refl p)

theorem writeKiln (p : Plant) (k : KilnConfig) : p.Queues 0 (p.writeKiln k) := by
  have hq : p.Queues 0 (p.configure fun c => { c with kiln := k }) := .same
  have hr := fun (c : Prop) [Decidable c] => Plant.Queues.ite (c := c) (hq.trans (eachZone takeMaximum _)) hq
  exact (Plant.Queues.ite ((hr _).trans (eachZone takeSafeFan _)) (hr _)).trans
    (eachZone (fun x z => (Plant.Kept.evaluateStart x z).queues) _)

theorem writeZone (p : Plant) (z : Zone) (c : ZoneConfig) : p.Queues 0 (p.writeZone z c) := by
  have hq : p.Queues 0 (p.configure fun x => { x with zones := x.zones.set z c }) := .same
  exact (Plant.Queues.ite (hq.trans (pass _ z _)) hq).trans (Plant.Kept.evaluateStart _ z).queues

theorem writeScan (p : Plant) (c : ScanConfig) : p.Queues 0 (p.writeScan c) := by
  unfold Plant.writeScan
  cases c.mode <;> exact .same

theorem writeProbe (p : Plant) (i : Fin 64) (c : ProbeConfig) : p.Queues 0 (p.writeProbe i c) := by
  have hq : p.Queues 0
      { p with
        work := { p.work with probes := p.work.probes.set i c }
        records := p.records.set i (if c.zone.isSome then some {} else none) } := .same
  exact (hq.trans (markStale _ i _)).trans (.ite .same (.refl _))

theorem recover (p : Plant) (z : Zone) : p.Queues 0 (p.recover z) := by
  have hq := (Plant.Kept.changeCauses p z fun c => { c with fan := false, overtemp := false }).queues
  exact .ite (.ite (hq.trans (.zone _ z _)) (hq.trans (.zone _ z _))) hq

end Plant.Queues

/-! ### The owners -/

/-- What the owner of a request does keeps the alert set in rising rank and the queue in its form, and queues one host item
where the answer says so, and none where it does not (R159). -/
def Performance.Queues (p : Plant) : Performance → Prop
  | .answered a => a.stores = false
  | .performed q a => p.Queues a.stores.toNat q

namespace Performance.Queues

variable {p q : Plant}

theorem refuse (p : Plant) (status : Status) : (Performance.refuse status).Queues p := rfl

theorem read (p : Plant) (content : Content) : (Performance.read content).Queues p := rfl

theorem ok (h : p.Queues 0 q) {content : Content} : (Performance.ok q content).Queues p := h

theorem stored (h : p.Queues 0 q) {item : SectionName} {status : Status} {content : Content} :
    (Performance.stored q item status content).Queues p := h.enqueueHost item

/-- A change of the configuration alone. -/
theorem configured (p : Plant) (f : Configuration → Configuration) (clamped : Bool) :
    (Performance.configured (p.configure f) clamped).Queues p := stored .same

end Performance.Queues

section Owners

variable (p : Plant)

/-- AK takes pairs out of the alert set and puts none in (R181). -/
theorem performAcknowledge_queues (pairs : List (Nat × Nat)) : (performAcknowledge pairs p).Queues p := by
  unfold performAcknowledge
  split
  · exact .refuse p _
  · exact Plant.Queues.mk (fun h => h.filter _) id rfl

theorem performChangeCode_queues (code : List Byte) : (performChangeCode code p).Queues p := .stored .same

theorem performCwKiln_queues (fields : RawKiln) : (performCwKiln fields p).Queues p := by
  unfold performCwKiln
  split
  · exact .refuse p _
  · exact .stored (.writeKiln p _)

theorem performCwZone_queues (zone : Nat) (fields : RawZone) : (performCwZone zone fields p).Queues p := by
  unfold performCwZone
  split
  · split
    · exact .refuse p _
    · exact .stored (.writeZone p _ _)
  · exact .refuse p _

theorem performCwGroup_queues (together limit : Nat) : (performCwGroup together limit p).Queues p := by
  unfold performCwGroup
  split
  · exact .refuse p _
  · exact .configured p _ _

theorem performCwScan_queues (mode favoured spotEnabled : Nat) : (performCwScan mode favoured spotEnabled p).Queues p := by
  unfold performCwScan
  split
  · split
    · exact .stored (.writeScan p _)
    · exact .refuse p _
  · exact .refuse p _

theorem performCwWindow_queues (window : Nat) (fields : RawWindow) : (performCwWindow window fields p).Queues p := by
  unfold performCwWindow
  split
  · exact .configured p _ _
  · exact .refuse p _

theorem performCwDefault_queues (settle samples : Nat) : (performCwDefault settle samples p).Queues p := by
  unfold performCwDefault
  split
  · exact .configured p _ _
  · exact .refuse p _

theorem performCwLine_queues (line : Nat) (fields : RawLine) : (performCwLine line fields p).Queues p := by
  unfold performCwLine
  split
  · split
    · exact .refuse p _
    · exact .stored (.configureLine p _ _)
  · exact .refuse p _

/-- A request that reads performs nothing, whatever index it names. -/
theorem performConfigurationRead_queues (item index : Nat) : (performConfigurationRead item index p).Queues p := by
  unfold performConfigurationRead
  dsimp only
  split
  case h_2 | h_5 | h_7 => split <;> rfl
  all_goals rfl

theorem performProbeWrite_queues (entry : Nat) (fields : RawProbe) : (performProbeWrite entry fields p).Queues p := by
  unfold performProbeWrite
  split
  · split
    · exact .refuse p _
    · exact .stored (.writeProbe p _ _)
  · exact .refuse p _

theorem performProbeRead_queues (entry : Nat) : (performProbeRead entry p).Queues p := by
  unfold performProbeRead
  split <;> rfl

theorem performExcludeProbe_queues (entry : Nat) : (performExcludeProbe entry p).Queues p := by
  unfold performExcludeProbe
  split
  · exact .refuse p _
  · split
    · exact .refuse p _
    · next i _ _ r _ =>
      split
      · exact .refuse p _
      · exact .read p _
      · have hq : p.Queues 0 { p with records := p.records.set i (some r.exclude) } := .same
        exact .ok (hq.trans (.markStale _ i _))

theorem performReinstateProbe_queues (entry : Nat) : (performReinstateProbe entry p).Queues p := by
  unfold performReinstateProbe
  split
  · exact .refuse p _
  · split
    · exact .refuse p _
    · split
      · exact .ok .same
      · exact .ok .same
      · exact .refuse p _

theorem performSpotRequest_queues (entry : Nat) : (performSpotRequest entry p).Queues p := by
  have hq : ∀ i, p.Queues 0 (Plant.arbitrate { p with spot := .waiting i }) := fun i =>
    have hw : p.Queues 0 { p with spot := .waiting i } := .same
    hw.trans (.arbitrate _)
  unfold performSpotRequest
  split
  · exact .refuse p _
  · split
    · exact .refuse p _
    · split
      · exact .refuse p _
      · split
        · exact .ok (hq _)
        · exact .refuse p _

theorem performSpotResult_queues : (performSpotResult p).Queues p := by
  unfold performSpotResult
  split
  · exact .refuse p _
  · rfl
  · rfl
  · exact .ok .same

theorem performSpeciesWrite_queues (group k : Nat) (knots : List Nat) : (performSpeciesWrite group k knots p).Queues p := by
  unfold performSpeciesWrite
  split
  · exact .stored .same
  · exact .refuse p _

theorem performSpeciesRead_queues (group : Nat) : (performSpeciesRead group p).Queues p := by
  unfold performSpeciesRead
  split <;> rfl

theorem performSetCursor_queues (index : Nat) : (performSetCursor index p).Queues p := by
  unfold performSetCursor
  split
  · exact .ok .same
  · exact .refuse p _

theorem performWriteRecord_queues (record : Option RawStep) : (performWriteRecord record p).Queues p := by
  have ho : ∀ x, (p.offer x).Queues p := fun x => by
    unfold Plant.offer
    split
    · exact .refuse p _
    · exact .stored .same
  unfold performWriteRecord
  split
  · exact ho _
  · split
    · exact ho _
    · exact .refuse p _

theorem performEntryTableWrite_queues (zone : Nat) (entries : RawEntries) :
    (performEntryTableWrite zone entries p).Queues p := by
  unfold performEntryTableWrite
  split
  · split
    · exact .stored .same
    · exact .refuse p _
  · exact .refuse p _

theorem performEntryTableRead_queues (zone : Nat) : (performEntryTableRead zone p).Queues p := by
  unfold performEntryTableRead
  split <;> rfl

theorem performStartZone_queues (zone : Nat) : (performStartZone zone p).Queues p := by
  unfold performStartZone
  split
  · exact .refuse p _
  · split
    · exact .refuse p _
    · split
      · exact .refuse p _
      · split
        · exact .refuse p _
        · split
          · rfl
          · exact .ok (Plant.Kept.ite (.groupStart p _ _) (.startAlone p _ _)).queues

theorem performHold_queues (target : Nat) : (performHold target p).Queues p := by
  have hall : ∀ zs : List Zone, p.Queues 0 (zs.foldl Plant.hostHold p).judgeRelease := fun zs =>
    ((Plant.Kept.foldl _ (fun q z => .joinHold q z _) zs p).trans (.judgeRelease _)).queues
  unfold performHold
  split
  · exact .ok (hall _)
  · split
    · exact .refuse p _
    · split
      · exact .ok (hall _)
      · exact .refuse p _

theorem performResume_queues (zone : Nat) : (performResume zone p).Queues p := by
  have hall : ∀ zs : List Zone, p.Queues 0 (zs.foldl Plant.hostResume p).judgeRelease := fun zs =>
    ((Plant.Kept.foldl _ (fun q z => .ite (.leaveHold q z _) (.refl q)) zs p).trans (.judgeRelease _)).queues
  unfold performResume
  split
  · exact .refuse p _
  · split
    · exact .refuse p _
    · split
      · split
        · rfl
        · next hq => exact .ok (Plant.Kept.tryResume hq).queues
      · exact .ok (hall _)
      · exact .ok (hall _)
      · exact .refuse p _

theorem performSkip_queues (zone : Nat) : (performSkip zone p).Queues p := by
  unfold performSkip
  split
  · exact .refuse p _
  · split
    · exact .ok ((Plant.Kept.becomeEligible p _ _).trans (.judgeRelease _)).queues
    · exact .refuse p _

theorem performAbort_queues (zone : Nat) : (performAbort zone p).Queues p := by
  have hnote : ∀ z, p.Kept ((p.record z .aborted).enterIdle z).judgeRelease := fun z =>
    ((Plant.Kept.record p z .aborted none).trans (.enterIdle _ z)).trans (.judgeRelease _)
  have hrun : ∀ z ph, p.Kept (p.abortRun z ph).judgeRelease := fun z ph =>
    (Plant.Kept.abortRun p z ph).trans (.judgeRelease _)
  unfold performAbort
  split
  · exact .refuse p _
  · split
    · exact .ok (hrun _ _).queues
    · exact .ok (hrun _ _).queues
    · exact .ok (hnote _).queues
    · exact .ok (hnote _).queues
    · exact .ok ((Plant.Kept.enterIdle p _).trans (.judgeGroup _)).queues
    · exact .ok (Plant.Kept.enterIdle p _).queues
    · exact .refuse p _
    · exact .refuse p _

theorem performReloadStep_queues (zone : Nat) : (performReloadStep zone p).Queues p := by
  unfold performReloadStep
  split
  · exact .refuse p _
  · split
    · exact .ok (Plant.Kept.reloadStep p _).queues
    · exact .refuse p _

theorem performClearDone_queues (zone : Nat) : (performClearDone zone p).Queues p := by
  unfold performClearDone
  split
  · exact .refuse p _
  · split
    · exact .ok (Plant.Kept.enterIdle p _).queues
    · exact .refuse p _

theorem performRecover_queues (zone : Nat) : (performRecover zone p).Queues p := by
  unfold performRecover
  split
  · exact .refuse p _
  · split
    · exact .refuse p _
    · split
      · exact .refuse p _
      · exact .ok (.recover p _)

theorem performDelayedStartMinutes_queues (minutes : Nat) : (performDelayedStartMinutes minutes p).Queues p := by
  unfold performDelayedStartMinutes
  split
  · exact .ok .same
  · exact .refuse p _

theorem performZoneRead_queues (zone : Nat) : (performZoneRead zone p).Queues p := by
  unfold performZoneRead
  split <;> rfl

theorem performRunRecordRead_queues (zone position : Nat) : (performRunRecordRead zone position p).Queues p := by
  unfold performRunRecordRead
  split
  · exact .refuse p _
  · split <;> rfl

theorem performOverride_queues (zone output value : Nat) : (performOverride zone output value p).Queues p := by
  unfold performOverride
  split
  · split
    · exact .refuse p _
    · exact .ok .same
  · exact .refuse p _

theorem performReleaseOverride_queues (zone output : Nat) : (performReleaseOverride zone output p).Queues p := by
  unfold performReleaseOverride
  split
  · exact .ok ((Plant.Queues.overrides p _ _).trans (.ite (.refl _) .same))
  · exact .refuse p _

theorem performRefreshOverrides_queues : (performRefreshOverrides p).Queues p :=
  .ok (.ite .same (.refl p))

theorem performFieldEnable_queues : (performFieldEnable p).Queues p := by
  unfold performFieldEnable
  split
  · exact .read p _
  · have hq : p.Queues 0 { p with fieldEnabled := true } := .same
    exact .ok (hq.trans (Plant.Kept.eachZone_autoResume _).queues)

theorem performFieldDisable_queues : (performFieldDisable p).Queues p := by
  have hq : p.Queues 0 { p with fieldEnabled := false } := .same
  unfold performFieldDisable
  split
  · exact .refuse p _
  · split
    · exact .read p _
    · exact .ok (hq.trans (.eachZone (fun q z => .output q z _) _))

theorem performLineModify_queues (mask values : Nat) : (performLineModify mask values p).Queues p := by
  unfold performLineModify
  split
  · exact .ok .same
  · exact .refuse p _

end Owners

end Sys2Proof.Machine
end

section
/-! SUPPORT. Proofs: the alert set and the store write queue through every command and every millisecond, and the statement on
them (R158, R159, R162, R172, R179, R180, R183). -/

namespace Sys2Proof.Machine

/-! ### The state -/

/-- A request waits for no write where none is unanswered. -/
theorem LinkState.awaiting_none {l : LinkState} (h : l.unanswered = none) : l.awaiting = false := by
  unfold LinkState.awaiting
  rw [h]

/-- What an event does to the state breaks the form neither of the alert set nor of the queue. -/
structure State.Orders (s t : State) : Prop where
  alerts : s.plant.AlertsLawful → t.plant.AlertsLawful
  queue : s.QueueLawful → t.QueueLawful

namespace State.Orders

variable {s t : State}

theorem refl (s : State) : s.Orders s := ⟨id, id⟩

theorem ite {c : Prop} [Decidable c] {r : State} (h : s.Orders t) (k : s.Orders r) : s.Orders (if c then t else r) := by
  split <;> assumption

/-- A change of the plant that queues no host item, with ATTN# as it follows from the alert set, while the mode and the link
stay. -/
theorem of_plant {q : Plant} (hq : s.plant.Queues 0 q)
    (ha : s.plant.attn = !s.plant.alerts.isEmpty → q.attn = !q.alerts.isEmpty)
    (hm : s.mode = .running ∨ q.queue = s.plant.queue) : s.Orders { s with plant := q } where
  alerts h := ⟨hq.sorted h.sorted, ha h.attn⟩
  queue h :=
    { formed := hq.formed h.formed
      hosts := hq.hosts.trans h.hosts
      sending := h.sending
      quiet := fun hn => ⟨(h.quiet hn).1, (hm.resolve_left hn).trans (h.quiet hn).2⟩ }

/-- A change of the link after which the same request is unanswered, and a reply is sent as before or not at all. -/
theorem withLink (s : State) (f : LinkState → LinkState) (hu : (f s.link).unanswered = s.link.unanswered)
    (ht : (f s.link).txen = true → s.link.txen = true) : s.Orders (s.withLink f) where
  alerts := id
  queue h :=
    have ha : (f s.link).awaiting = s.link.awaiting := by rw [LinkState.awaiting, hu]; rfl
    { formed := h.formed
      hosts := by rw [show (s.withLink f).link.awaiting = s.link.awaiting from ha]; exact h.hosts
      sending := fun k => ha.trans (h.sending (ht k))
      quiet := fun hn => ⟨hu.trans (h.quiet hn).1, (h.quiet hn).2⟩ }

theorem hunt (s : State) : s.Orders s.hunt := withLink s _ rfl id

/-- A request answered, and with it no longer waited for, where it waits for no write. -/
theorem answered (s : State) (f : LinkState → LinkState) (ha : s.link.awaiting = false) (hu : (f s.link).unanswered = none) :
    s.Orders (s.withLink f) where
  alerts := id
  queue h :=
    have hf : (s.withLink f).link.awaiting = false := LinkState.awaiting_none hu
    { formed := h.formed
      hosts := by rw [hf, ← ha]; exact h.hosts
      sending := fun _ => hf
      quiet := fun hn => ⟨hu, (h.quiet hn).2⟩ }

theorem event (s : State) {f : Plant → Plant} (h : s.plant.Queues 0 (f s.plant)) : s.Orders (s.event f) := by
  unfold State.event
  split
  · next hr => exact of_plant (h.trans (.settle _ _)) (fun _ => (settle_levelled _ _).attn) (.inl hr)
  · exact .refl s

/-- An expiry of a timer. -/
theorem expiry (s : State) {t : Plant → Timer} {f : Plant → Plant} (h : ∀ p : Plant, p.Queues 0 (f p)) :
    s.Orders (s.event fun p => p.whileRunning (t p) (f p)) := event s (.ite (h _) (.refl _))

end State.Orders

/-! ### Requests -/

/-- What the owner of a request does with the part: it leaves the mode, the reply and the unanswered request to the link, keeps
the form of the alert set and of the queue, and queues one host item where the answer says so, and none where it does not. -/
structure State.Performs (s : State) (x : State × Answer) : Prop where
  mode : x.1.mode = s.mode
  txen : x.1.link.txen = s.link.txen
  alerts : s.plant.AlertsLawful → x.1.plant.AlertsLawful
  formed : s.plant.queue.Formed → x.1.plant.queue.Formed
  hosts : x.1.plant.queue.hosts = s.plant.queue.hosts + x.2.stores.toNat

namespace State.Performs

/-- A request that changes at most the link's other items and stores nothing. -/
theorem same (s : State) {x : State × Answer} (hm : x.1.mode = s.mode := by rfl) (ht : x.1.link.txen = s.link.txen := by rfl)
    (hp : x.1.plant = s.plant := by rfl) (ha : x.2.stores = false := by rfl) : s.Performs x :=
  ⟨hm, ht, fun h => hp ▸ h, fun h => hp ▸ h, by rw [hp, ha]; rfl⟩

/-- A request that a block below the link carries out. -/
theorem ask (s : State) {f : Plant → Performance} (hs : (f s.plant).Queues s.plant) : s.Performs (s.ask f) := by
  unfold State.ask
  split
  · next ha =>
    rw [ha] at hs
    exact .same s rfl rfl rfl hs
  · next hq =>
    rw [hq] at hs
    have hl := Plant.Queues.settle s.plant
    exact ⟨rfl, rfl, fun h => ⟨(hl _).sorted (hs.sorted h.sorted), (settle_levelled _ _).attn⟩,
      fun h => (hl _).formed (hs.formed h), (hl _).hosts.trans hs.hosts⟩

/-- A request denied at the gate changes nothing (R174). -/
theorem perform {s : State} {f : State → State × Answer} (hf : s.Performs (f s)) (kind : RequestKind) :
    s.Performs (s.perform kind f) := by
  unfold State.perform
  split
  · exact .same s
  · exact hf

end State.Performs

/-- UN moves the gate alone (R177). -/
theorem performUnlock_performs (code : List Byte) (s : State) : s.Performs (performUnlock code s) := by
  unfold performUnlock
  split
  · exact .same s
  · exact .same s
  · split <;> exact .same s

/-- What the owner of any request does. -/
theorem performRequest_performs (i : Instr) (s : State) : s.Performs (performRequest i s) := by
  cases i with
  | unlock env code => exact performUnlock_performs code s
  | acknowledgeAlerts env pairs => exact .ask s (performAcknowledge_queues _ _)
  | changeCode env code => exact .ask s (performChangeCode_queues _ _)
  | cwKiln env fields => exact .ask s (performCwKiln_queues _ _)
  | cwZone env zone fields => exact .ask s (performCwZone_queues _ _ _)
  | cwGroup env together limit => exact .ask s (performCwGroup_queues _ _ _)
  | cwScan env mode favoured spot => exact .ask s (performCwScan_queues _ _ _ _)
  | cwWindow env window fields => exact .ask s (performCwWindow_queues _ _ _)
  | cwDefault env settle samples => exact .ask s (performCwDefault_queues _ _ _)
  | cwLine env line fields => exact .ask s (performCwLine_queues _ _ _)
  | configurationRead env item index => exact .ask s (performConfigurationRead_queues _ _ _)
  | probeWrite env entry fields => exact .ask s (performProbeWrite_queues _ _ _)
  | probeRead env entry => exact .ask s (performProbeRead_queues _ _)
  | excludeProbe env entry => exact .ask s (performExcludeProbe_queues _ _)
  | reinstateProbe env entry => exact .ask s (performReinstateProbe_queues _ _)
  | spotRequest env entry => exact .ask s (performSpotRequest_queues _ _)
  | spotResult env => exact .ask s (performSpotResult_queues _)
  | speciesWrite env group k knots => exact .ask s (performSpeciesWrite_queues _ _ _ _)
  | speciesRead env group => exact .ask s (performSpeciesRead_queues _ _)
  | setCursor env index => exact .ask s (performSetCursor_queues _ _)
  | writeRecord env record => exact .ask s (performWriteRecord_queues _ _)
  | entryTableWrite env zone entries => exact .ask s (performEntryTableWrite_queues _ _ _)
  | entryTableRead env zone => exact .ask s (performEntryTableRead_queues _ _)
  | startZone env zone => exact .ask s (performStartZone_queues _ _)
  | hold env target => exact .ask s (performHold_queues _ _)
  | resume env zone => exact .ask s (performResume_queues _ _)
  | skip env zone => exact .ask s (performSkip_queues _ _)
  | abort env zone => exact .ask s (performAbort_queues _ _)
  | reloadStep env zone => exact .ask s (performReloadStep_queues _ _)
  | clearDone env zone => exact .ask s (performClearDone_queues _ _)
  | recover env zone => exact .ask s (performRecover_queues _ _)
  | delayedStartMinutes env minutes => exact .ask s (performDelayedStartMinutes_queues _ _)
  | override env zone output value => exact .ask s (performOverride_queues _ _ _ _)
  | releaseOverride env zone output => exact .ask s (performReleaseOverride_queues _ _ _)
  | refreshOverrides env => exact .ask s (performRefreshOverrides_queues _)
  | fieldEnable env => exact .ask s (performFieldEnable_queues _)
  | fieldDisable env => exact .ask s (performFieldDisable_queues _)
  | lineModify env mask values => exact .ask s (performLineModify_queues _ _ _)
  | zoneRead env zone => exact .ask s (performZoneRead_queues _ _)
  | runRecordRead env zone position => exact .ask s (performRunRecordRead_queues _ _ _)
  | identify env => exact .ask s (f := performIdentify) (.read _ _)
  | rsReset env => exact .ask s (f := performReset) (.read _ _)
  | lineRead env => exact .ask s (f := performLineRead) (.read _ _)
  | delayedStartQuery env => exact .ask s (f := performDelayedStartQuery) (.read _ _)
  | readRecord env => exact .ask s (f := performReadRecord) (.ok .same)
  | delayedStartCancel env => exact .ask s (f := performDelayedStartCancel) (.ok .same)
  | _ => exact .same s

/-! ### The link -/

namespace State.Orders

variable {s t : State}

/-- The taken request is the only one, and waits for a write where it has queued its host item (R159, R172). -/
theorem note {x : State × Answer} (hr : s.mode = .running) (ht : s.link.txen = false) (hu : s.link.unanswered = none)
    (hx : s.Performs x) (env : Envelope) (letters : Byte × Byte) : s.Orders (State.note x env letters) where
  alerts := hx.alerts
  queue h :=
    { formed := hx.formed h.formed
      hosts := by
        have hh := h.hosts
        rw [LinkState.awaiting_none hu] at hh
        refine (hx.hosts.trans (congrArg (· + x.2.stores.toNat) hh)).trans ?_
        change _ = if x.2.stores = true then 1 else 0
        cases x.2.stores <;> rfl
      sending := fun k => absurd (hx.txen.symm.trans k) (by simp [ht])
      quiet := fun hn => absurd (hx.mode.trans hr) hn }

theorem trans {r : State} (h : s.Orders t) (k : t.Orders r) : s.Orders r := ⟨k.alerts ∘ h.alerts, k.queue ∘ h.queue⟩

/-- A frame that completes is taken by a part with no request unanswered, or counted as an overrun, or lost (R162, R171). -/
theorem complete (s : State) {f : State → State × Answer} (hf : ∀ t : State, t.Performs (f t)) (env : Envelope)
    (letters : Byte × Byte) : s.Orders (s.complete fun x => State.note (f x) env letters) := by
  unfold State.complete
  split
  · next hr =>
    split
    · exact .refl s
    · next ht =>
      split
      · exact withLink s _ rfl id
      · next hu =>
        exact (hunt s).trans
          (note (s := s.hunt) hr (Bool.not_eq_true _ ▸ ht) (Option.not_isSome_iff_eq_none.1 hu) (hf s.hunt) env letters)
  · exact .refl s

theorem take (s : State) {f : State → State × Answer} (hf : ∀ t : State, t.Performs (f t)) (env : Envelope)
    (kind : RequestKind) : s.Orders (s.take env kind f) := complete s (fun t => (hf t).perform kind) env _

/-- What a taken frame asks, whatever its bytes are (R174). -/
theorem takeFrame (s : State) (env : Envelope) (letters : Byte × Byte) (payload : List Byte) :
    s.Orders (s.takeFrame env letters payload) := by
  refine complete s (f := fun x => x.answerFrame env letters payload) (fun x => ?_) env letters
  unfold State.answerFrame
  cases kindOf letters with
  | none => exact .same x
  | some kind =>
    dsimp only
    unfold State.answerPayload
    cases parsePayload env kind payload with
    | badForm => exact .same x
    | undefinedValue k => exact State.Performs.perform (f := fun h => (h, { status := .badValue })) (.same x) k
    | request i => exact (performRequest_performs i x).perform kind

theorem checkError (s : State) : s.Orders s.checkError := withLink s _ rfl id

theorem discard (s : State) : s.Orders s.discard := .ite (hunt s) (.refl s)

theorem judgeFrame (s : State) (bytes : List Byte) : s.Orders (s.judgeFrame bytes) := by
  refine .ite (checkError s) ?_
  split
  · exact hunt s
  · exact takeFrame s _ _ _

theorem collect (s : State) (bytes : List Byte) : s.Orders (s.collect bytes) :=
  .ite (checkError s) (.ite (judgeFrame s bytes) (withLink s _ rfl id))

theorem takeByte (s : State) (b : Byte) : s.Orders (s.takeByte b) := by
  refine .ite ?_ (.refl s)
  split
  · exact .ite (withLink s _ rfl id) (.refl s)
  · exact collect s _

/-! ### Resets and the supply -/

/-- A reset, and the loss of the supply, leave the alert set and the queue empty and no request unanswered (R162, R183). -/
theorem quieted (s : State) {p : Plant} (hp : t.plant = p.quiet) (hu : t.link.unanswered = none) : s.Orders t where
  alerts _ := by rw [hp]; exact ⟨List.Pairwise.nil, rfl⟩
  queue _ :=
    have ha := LinkState.awaiting_none hu
    { formed := by rw [hp]; exact ⟨List.nodup_nil, fun _ => rfl⟩
      hosts := by rw [ha, hp]; rfl
      sending := fun _ => ha
      quiet := fun _ => ⟨hu, by rw [hp]; rfl⟩ }

theorem takeReset (s : State) (k : ResetKind) : s.Orders (s.takeReset k) := quieted s rfl (by cases k <;> rfl)

theorem loseSupply (s : State) : s.Orders s.loseSupply := by
  unfold State.loseSupply
  split
  · exact .refl s
  · exact quieted s rfl rfl

/-- A restart takes the queue as the reset has left it: empty, with no request unanswered (R164). -/
theorem endReset (s : State) (straps : Straps) : s.Orders (s.endReset straps) := by
  unfold State.endReset
  split
  · next hm =>
    have hq := Plant.Queues.restart s.plant straps
    exact
      { alerts := fun _ => ⟨hq.sorted List.Pairwise.nil, (Plant.settlePins_levelled _).attn⟩
        queue := fun h =>
          have hn := (h.quiet (by rw [hm]; nofun)).1
          have ha := LinkState.awaiting_none hn
          { formed := hq.formed ⟨List.nodup_nil, fun _ => rfl⟩
            hosts := by rw [ha]; exact hq.hosts
            sending := fun _ => ha
            quiet := fun hr => absurd rfl hr } }
  · exact .refl s

/-! ### Replies, store writes, the lines and the passing of time -/

/-- A reply begins for a request that waits for no write (R172, R173). -/
theorem startReply (s : State) : s.Orders s.startReply := by
  unfold State.startReply
  split
  · next u _ hu =>
    split
    · exact .refl s
    · next hw =>
      have ha : s.link.awaiting = false := by rw [LinkState.awaiting, hu]; simpa using hw
      refine .ite (.ite (takeReset s _) (answered s _ ha rfl)) ⟨id, fun h => ?_⟩
      exact { formed := h.formed, hosts := h.hosts, sending := fun _ => ha, quiet := h.quiet }
  · exact .refl s

/-- A reply being sent is that of a request that waits for no write (R172). -/
theorem endReply (s : State) : s.Orders s.endReply := by
  unfold State.endReply
  split
  · next hr =>
    refine ⟨id, fun h => (answered s _ (h.sending hr.2) ?_).queue h⟩
    dsimp only
    split
    · rfl
    · next hu => exact hu
  · exact .refl s

end State.Orders

/-- A completed write leaves the host items that waited: the next one in flight is the oldest of them (R158). -/
theorem Plant.completeWrite_hosts {p : Plant} {w : StoreWrite} (h : p.queue.inFlight = some w) :
    p.completeWrite.queue.hosts = (hostItems p.queue.waiting).length := by
  unfold Plant.completeWrite
  rw [h]
  dsimp only
  cases p.queue.waiting with
  | nil => rfl
  | cons x xs =>
    cases x with
    | host name => exact Nat.add_comm 1 _
    | checkpoint z c => exact Nat.zero_add _

/-- After the write of its host item a request waits for it no longer (R172). -/
theorem LinkState.hostItemWritten_awaiting (l : LinkState) : l.hostItemWritten.awaiting = false := by
  unfold LinkState.hostItemWritten
  split
  · next hu => exact awaiting_none hu
  · next u hu =>
    split
    · next hw => rw [awaiting, hu]; simpa using hw
    · split <;> rfl

namespace State.Orders

theorem completeWrite (s : State) : s.Orders s.completeWrite := by
  have halerts : s.plant.AlertsLawful → s.plant.completeWrite.AlertsLawful := fun h => by
    rw [Plant.completeWrite_eq]
    exact ⟨h.sorted, h.attn⟩
  unfold State.completeWrite
  split
  · next content hr hf =>
    refine ⟨halerts, fun h => ?_⟩
    have ha := s.link.hostItemWritten_awaiting
    have hone : 1 + (hostItems s.plant.queue.waiting).length ≤ 1 := by
      have hh := h.hosts
      rw [StoreQueue.hosts, hf] at hh
      dsimp only at hh
      split at hh <;> omega
    exact
      { formed := Plant.completeWrite_formed h.formed
        hosts := by rw [ha, Plant.completeWrite_hosts hf]; simp only [Bool.false_eq_true, if_false]; omega
        sending := fun _ => ha
        quiet := fun hn => absurd hr hn }
  · next z c hr hf =>
    refine ⟨halerts, fun h => ?_⟩
    have hh := h.hosts
    rw [StoreQueue.hosts, hf, Nat.zero_add] at hh
    exact
      { formed := Plant.completeWrite_formed h.formed
        hosts := (Plant.completeWrite_hosts hf).trans hh
        sending := h.sending
        quiet := fun hn => absurd hr hn }
  · exact .refl s

theorem idle (s : State) : s.Orders s.idle := by
  unfold State.idle
  split
  · exact of_plant .same id (.inr rfl)
  · exact .refl s

/-- What any command leaves. -/
theorem exec (s : State) (i : Instr) : ∃ t, Machine.exec i s = .next t ∧ s.Orders t := by
  by_cases hr : i.envelope.isSome = true
  · obtain ⟨env, kind, ht⟩ := exec_request hr s
    exact ⟨_, ht, take s (performRequest_performs i) env kind⟩
  · cases i with
    | frameComplete crcLow => exact ⟨_, rfl, .ite (takeByte s crcLow) (.refl s)⟩
    | badLengthByte length => exact ⟨_, rfl, .ite (.ite (checkError s) (.refl s)) (.refl s)⟩
    | interByteTimeout => exact ⟨_, rfl, discard s⟩
    | stopBitError => exact ⟨_, rfl, discard s⟩
    | lineBreak => exact ⟨_, rfl, discard s⟩
    | byteArrival byte => exact ⟨_, rfl, takeByte s byte⟩
    | replyStart => exact ⟨_, rfl, startReply s⟩
    | replyEnd => exact ⟨_, rfl, endReply s⟩
    | powerOnReset => exact ⟨_, rfl, takeReset s _⟩
    | pinReset => exact ⟨_, rfl, .ite (takeReset s _) (.refl s)⟩
    | commandedReset => exact ⟨_, rfl, .ite (takeReset s _) (.refl s)⟩
    | restart sta bd mxs => exact ⟨_, rfl, endReset s _⟩
    | powerLoss => exact ⟨_, rfl, loseSupply s⟩
    | storeWriteComplete => exact ⟨_, rfl, completeWrite s⟩
    | passTimerExpiry zone => exact ⟨_, rfl, expiry s fun p => .passExpiry p zone⟩
    | measurementCompletion samples => exact ⟨_, rfl, event s (.completeMeasurement _ samples)⟩
    | minuteTimerExpiry zone => exact ⟨_, rfl, expiry s fun p => (Plant.Kept.minuteExpiry p zone).queues⟩
    | startTimeoutExpiry zone => exact ⟨_, rfl, expiry s fun p => .ite (Plant.Kept.timeoutStart p zone).queues (.refl p)⟩
    | delayedStartExpiry => exact ⟨_, rfl, expiry s .delayedExpiry⟩
    | groupStartTimeoutExpiry => exact ⟨_, rfl, expiry s fun p => (Plant.Kept.groupTimeoutExpiry p).queues⟩
    | climateSampleComplete zone db wb => exact ⟨_, rfl, expiry s fun p => .sampleComplete p zone db wb⟩
    | rampMinuteExpiry zone => exact ⟨_, rfl, expiry s fun p => .rampExpiry p zone⟩
    | pulsePeriodStart zone => exact ⟨_, rfl, expiry s fun p => .same (q := p.periodStart zone)⟩
    | onTimeExpiry zone output => exact ⟨_, rfl, expiry s fun p => .output p zone _⟩
    | dwellExpiry zone => exact ⟨_, rfl, expiry s fun p => (Plant.Kept.fan p zone _).queues⟩
    | proofDelayExpiry zone => exact ⟨_, rfl, expiry s fun p => .proofExpiry p zone⟩
    | overrideLapseExpiry => exact ⟨_, rfl, expiry s .lapseExpiry⟩
    | pinChange line high => exact ⟨_, rfl, .ite (event s (.pinChange _ line high)) (of_plant .same id (.inr rfl))⟩
    | debounceTimerExpiry line => exact ⟨_, rfl, event s (.debounceExpiry _ line)⟩
    | _ => exact absurd rfl hr

end State.Orders

/-- Settles O57: every operation on the plant keeps the alert set in rising rank and the queue in its form, only a request that
is taken queues a host item, and it waits for the write of that item. -/
theorem alertAndQueueLaws : Obligations.AlertAndQueueLaws := by
  unfold Obligations.AlertAndQueueLaws
  intro s t h
  unfold step at h
  split at h
  · cases h
    have ho := State.Orders.idle s
    exact ⟨ho.alerts, ho.queue⟩
  · next c rest _ =>
    obtain ⟨t', ht, ho⟩ := State.Orders.exec { s with pending := rest } c
    rw [ht] at h
    cases h
    exact ⟨ho.alerts, fun k => ho.queue ⟨k.formed, k.hosts, k.sending, k.quiet⟩⟩

end Sys2Proof.Machine
end

section
/-! SUPPORT. Proofs: the pairs that AK names and the requests on the link's own state, and the statement on them (R162, R165, R177,
R181). -/

namespace Sys2Proof.Machine

/-! ### The pairs of an AK -/

/-- The pairs of scope and kind that are defined (R179). -/
def AlertPairDefined (x : Nat × Nat) : Prop := (x.1 ≤ 3 ∧ x.2 ≤ 11) ∨ (x.1 = 4 ∧ x.2 ≤ 3)

theorem zoneOf_isSome_iff (n : Nat) : (zoneOf n).isSome = true ↔ n ≤ 3 := by
  rcases Nat.lt_or_ge n 4 with h | h
  · exact iff_of_true (by interval_cases n <;> rfl) (by omega)
  · exact iff_of_false (by rw [zoneOf_eq_none h]; nofun) (by omega)

theorem zoneAlertOf_isSome_iff (n : Nat) : (zoneAlertOf n).isSome = true ↔ n ≤ 11 := by
  rcases Nat.lt_or_ge n 12 with h | h
  · exact iff_of_true (by interval_cases n <;> rfl) (by omega)
  · obtain ⟨m, rfl⟩ := Nat.exists_eq_add_of_le' h
    exact iff_of_false nofun (by omega)

theorem deviceAlertOf_isSome_iff (n : Nat) : (deviceAlertOf n).isSome = true ↔ n ≤ 3 := by
  rcases Nat.lt_or_ge n 4 with h | h
  · exact iff_of_true (by interval_cases n <;> rfl) (by omega)
  · obtain ⟨m, rfl⟩ := Nat.exists_eq_add_of_le' h
    exact iff_of_false nofun (by omega)

theorem code_of_zoneOf {n : Nat} {z : Zone} (h : zoneOf n = some z) : z.code = n := by
  unfold zoneOf at h
  split at h <;> cases h <;> rfl

theorem code_of_zoneAlertOf {n : Nat} {k : ZoneAlert} (h : zoneAlertOf n = some k) : k.code = n := by
  unfold zoneAlertOf at h
  split at h <;> cases h <;> rfl

theorem code_of_deviceAlertOf {n : Nat} {k : DeviceAlert} (h : deviceAlertOf n = some k) : k.code = n := by
  unfold deviceAlertOf at h
  split at h <;> cases h <;> rfl

/-- A pair names an alert exactly where it is defined (R179). -/
theorem alertOf_isSome_iff (x : Nat × Nat) : (alertOf x).isSome = true ↔ AlertPairDefined x := by
  have hz := zoneOf_isSome_iff x.1
  have hk := zoneAlertOf_isSome_iff x.2
  have hd := deviceAlertOf_isSome_iff x.2
  unfold alertOf AlertPairDefined
  split
  · next h => rw [Option.isSome_map, hd]; omega
  · cases ez : zoneOf x.1 with
    | none => rw [ez] at hz; simp at hz ⊢; omega
    | some z => cases ek : zoneAlertOf x.2 <;> rw [ez] at hz <;> rw [ek] at hk <;> simp at hz hk ⊢ <;> omega

/-- The pair that names an alert is its scope and its kind. -/
theorem pair_of_alertOf {x : Nat × Nat} {a : Alert} (h : alertOf x = some a) : (a.scopeCode, a.kindCode) = x := by
  unfold alertOf at h
  split at h
  · next h4 =>
    obtain ⟨k, hk, rfl⟩ := Option.map_eq_some_iff.1 h
    exact Prod.ext h4.symm (code_of_deviceAlertOf hk)
  · split at h
    · next z k hz hk =>
      cases h
      exact Prod.ext (code_of_zoneOf hz) (code_of_zoneAlertOf hk)
    · cases h

/-- Every alert is named by its scope and its kind. -/
theorem alertOf_pair (a : Alert) : alertOf (a.scopeCode, a.kindCode) = some a := by
  cases a with
  | zone z k => cases z <;> cases k <;> rfl
  | device k => cases k <;> rfl

/-- AK names alerts exactly where each of its pairs is defined (R181). -/
theorem alertsOf_isSome_iff (xs : List (Nat × Nat)) : (alertsOf xs).isSome = true ↔ ∀ x ∈ xs, AlertPairDefined x := by
  induction xs with
  | nil => simp [alertsOf]
  | cons x xs ih =>
    rw [List.forall_mem_cons, ← ih, ← alertOf_isSome_iff, alertsOf]
    cases alertOf x <;> cases alertsOf xs <;> simp

theorem mem_alertsOf {xs : List (Nat × Nat)} {listed : List Alert} (h : alertsOf xs = some listed) (a : Alert) :
    a ∈ listed ↔ (a.scopeCode, a.kindCode) ∈ xs := by
  induction xs generalizing listed with
  | nil => cases h; simp
  | cons x xs ih =>
    unfold alertsOf at h
    split at h
    · next b bs hb hbs =>
      cases h
      have hx : a = b ↔ (a.scopeCode, a.kindCode) = x :=
        ⟨fun e => e ▸ pair_of_alertOf hb, fun e => Option.some.inj ((alertOf_pair a).symm.trans (e ▸ hb))⟩
      rw [List.mem_cons, List.mem_cons, ih hbs, hx]
    · cases h

theorem performAcknowledge_undefined {p : Plant} {pairs : List (Nat × Nat)} (h : ¬∀ x ∈ pairs, AlertPairDefined x) :
    performAcknowledge pairs p = .refuse .badValue := by
  rw [← alertsOf_isSome_iff, Option.not_isSome_iff_eq_none] at h
  unfold performAcknowledge
  rw [h]

/-- What AK leaves of the alert set (R181). -/
def Plant.alertsLeft (p : Plant) (pairs : List (Nat × Nat)) : List Alert :=
  p.alerts.filter fun a => decide ((a.scopeCode, a.kindCode) ∉ pairs)

theorem Plant.mem_alertsLeft {p : Plant} {pairs : List (Nat × Nat)} {a : Alert} :
    a ∈ p.alertsLeft pairs ↔ a ∈ p.alerts ∧ (a.scopeCode, a.kindCode) ∉ pairs := by
  simp [Plant.alertsLeft]

theorem performAcknowledge_defined (p : Plant) {pairs : List (Nat × Nat)} (h : ∀ x ∈ pairs, AlertPairDefined x) :
    performAcknowledge pairs p =
      .ok { p with alerts := p.alertsLeft pairs } (.alertsLeft (p.alertsLeft pairs).length) := by
  obtain ⟨listed, hl⟩ := Option.isSome_iff_exists.1 ((alertsOf_isSome_iff pairs).2 h)
  have hf : (p.alerts.filter fun a => !listed.contains a) = p.alertsLeft pairs :=
    List.filter_congr fun a _ => by simp [← mem_alertsOf hl a]
  unfold performAcknowledge
  rw [hl]
  dsimp only
  rw [hf]

/-- An event that changes the alert set alone leaves every level but ATTN# (R179). -/
theorem settle_alerts {p : Plant} (h : p.Levelled) (xs : List Alert) :
    settle p { p with alerts := xs } = { p with alerts := xs, attn := !xs.isEmpty } := by
  have hp : p.settlePins = p := (p.levelled_iff).1 h
  calc settle p { p with alerts := xs } = ({ p with alerts := xs } : Plant).settlePins := settle_of_shouldRun fun _ => rfl
    _ = { p.settlePins with alerts := xs, attn := !xs.isEmpty } := rfl
    _ = { p with alerts := xs, attn := !xs.isEmpty } := by rw [hp]

/-! ### The gate and the cause record -/

/-- A request that moves only items of the link is answered on the link as it leaves it. -/
theorem State.take_link {s : State} {kind : RequestKind} (h : s.Ready kind) (env : Envelope) {f : State → State × Answer}
    {g : LinkState → LinkState} {a : Answer} (hf : f s.hunt = ((s.withLink g).hunt, a)) :
    s.take env kind f = (s.withLink g).answered kind env s.plant a := by
  rw [State.take_ready h, ← State.hunt, hf]
  exact State.note_hunting (s.withLink g) kind env s.plant a

section Unlock

variable {s : State}

theorem performUnlock_open (code : List Byte) (hg : s.link.gate = .open) :
    performUnlock code s.hunt = (s.hunt, { status := .ok }) := by
  simp [performUnlock, State.hunt, State.withLink, hg]

theorem performUnlock_barred (code : List Byte) (hg : s.link.gate = .barred) :
    performUnlock code s.hunt = (s.hunt, { status := .denied }) := by
  simp [performUnlock, State.hunt, State.withLink, hg]

theorem performUnlock_right {code : List Byte} (hg : s.link.gate = .locked) (hc : code = s.plant.work.code) :
    performUnlock code s.hunt = ((s.withLink fun l => { l with gate := .open }).hunt, { status := .ok }) := by
  simp [performUnlock, State.hunt, State.withLink, hg, hc]

theorem performUnlock_wrong {code : List Byte} (hg : s.link.gate = .locked) (hc : code ≠ s.plant.work.code) :
    performUnlock code s.hunt = ((s.withLink fun l => { l with gate := .barred }).hunt, { status := .denied }) := by
  simp [performUnlock, State.hunt, State.withLink, hg, hc]

end Unlock

/-- Settles O6: UN and CC move items of the link alone, CD and AK leave the plant that their one change makes, and RS changes
nothing. -/
theorem linkRequests : Obligations.LinkRequests := by
  unfold Obligations.LinkRequests
  refine ⟨fun s env code _ => ⟨fun h => ⟨fun hg => ?opened, fun hg => ?barred, fun hg hc => ?opens, fun hg hc => ?bars⟩,
    fun h hl => ?code⟩, fun s env pairs h hl => ⟨fun hu => ?undefined, fun hd => ?listed⟩,
    fun s env => ⟨fun h => ?reset, fun h => ?causes⟩⟩
  case opened => exact congrArg _ (State.take_link h env (g := id) (performUnlock_open code hg))
  case barred => exact congrArg _ (State.take_link h env (g := id) (performUnlock_barred code hg))
  case opens =>
    exact congrArg _ (State.take_link h env (g := fun l => { l with gate := .open }) (performUnlock_right hg hc))
  case bars =>
    exact congrArg _ (State.take_link h env (g := fun l => { l with gate := .barred }) (performUnlock_wrong hg hc))
  case code =>
    have ht := State.take_stored (f := performChangeCode code) h env rfl
    rw [settle_enqueue_of_same (q := { s.plant with work := { s.plant.work with code := code } }) hl rfl rfl rfl rfl rfl rfl]
      at ht
    exact congrArg _ ht
  case undefined =>
    obtain ⟨x, hx, hn⟩ := hu
    exact congrArg _ (State.take_refuse h env (performAcknowledge_undefined fun hall => hn (hall x hx)))
  case listed =>
    refine ⟨s.plant.alertsLeft pairs, fun a => Plant.mem_alertsLeft, List.filter_sublist, ?_⟩
    have ht := State.take_performed h env (performAcknowledge_defined s.plant hd)
    rw [settle_alerts hl] at ht
    exact congrArg _ ht
  case reset => exact ⟨_, congrArg Host.Outcome.next (State.take_read h env rfl), rfl, _, rfl, rfl, rfl⟩
  case causes =>
    exact congrArg _ (State.take_link h env
      (g := fun l => { l with cause := { lastKind := l.cause.lastKind }, checkErrors := 0, overruns := 0 }) rfl)

end Sys2Proof.Machine
end

section
/-! SUPPORT. Proofs: an item queued, a checkpoint as it is recorded, and the completion of a write, and the statement on them (R158 to
R161, R172). -/

namespace Sys2Proof.Machine

/-! ### An item queued -/

section Queued

variable {p : Plant}

/-- With nothing in flight the write of an item begins at once (R158). -/
theorem Plant.enqueue_free (h : p.queue.inFlight = none) (x : StoreItem) :
    p.enqueue x = { p with queue := { p.queue with inFlight := some (p.work.begin x) } } := by
  unfold Plant.enqueue
  rw [h]

theorem Plant.enqueue_host_busy (h : p.queue.inFlight.isSome = true) (x : SectionName) :
    p.enqueue (.host x) = { p with queue := { p.queue with waiting := p.queue.waiting ++ [.host x] } } := by
  obtain ⟨w, hw⟩ := Option.isSome_iff_exists.1 h
  unfold Plant.enqueue
  rw [hw]

theorem Plant.enqueue_checkpoint_busy (h : p.queue.inFlight.isSome = true) (z : Zone) (c : Checkpoint) :
    p.enqueue (.checkpoint z c) = { p with queue := { p.queue with waiting := placeCheckpoint z c p.queue.waiting } } := by
  obtain ⟨w, hw⟩ := Option.isSome_iff_exists.1 h
  unfold Plant.enqueue
  rw [hw]

end Queued

/-- Behind items none of which is a checkpoint of the zone, the place of its checkpoint item is the one that it has in the rest
(R161). -/
theorem placeCheckpoint_append {z : Zone} {c : Checkpoint} {xs : List StoreItem} (h : ∀ d, .checkpoint z d ∉ xs)
    (ys : List StoreItem) : placeCheckpoint z c (xs ++ ys) = xs ++ placeCheckpoint z c ys := by
  induction xs with
  | nil => rfl
  | cons x xs ih =>
    have hxs := ih fun d hd => h d (List.mem_cons_of_mem _ hd)
    cases x with
    | host s => exact congrArg _ hxs
    | checkpoint y d =>
      have hy : y ≠ z := fun e => h d (e ▸ List.mem_cons_self)
      rw [List.cons_append, placeCheckpoint, if_neg hy, hxs]
      rfl

/-- A checkpoint item takes the place of the waiting one of its zone (R161). -/
theorem placeCheckpoint_replace (z : Zone) (c d : Checkpoint) (xs : List StoreItem) :
    placeCheckpoint z c (.checkpoint z d :: xs) = .checkpoint z c :: xs := by
  rw [placeCheckpoint, if_pos rfl]

/-! ### The completion of a write -/

/-- The queue after a write is completed: the oldest waiting item begins its write (R158). -/
def Plant.nextQueue (p : Plant) : StoreQueue :=
  match p.queue.waiting with
  | [] => { inFlight := none, waiting := [] }
  | x :: xs => { inFlight := some (p.work.begin x), waiting := xs }

theorem Plant.completeWrite_some {p : Plant} {w : StoreWrite} (h : p.queue.inFlight = some w) :
    p.completeWrite = { p with store := p.store.write w, queue := p.nextQueue } := by
  unfold Plant.completeWrite
  rw [h]
  rfl

theorem LinkState.hostItemWritten_free {l : LinkState} (h : ∀ u, l.unanswered = some u → u.awaitsStore = false) :
    l.hostItemWritten = l := by
  unfold LinkState.hostItemWritten
  split
  · rfl
  · next u hu => rw [h u hu]; rfl

/-- After the write of its host item a broadcast is unanswered no longer (R172). -/
theorem LinkState.hostItemWritten_broadcast {l : LinkState} {u : Unanswered} (hu : l.unanswered = some u)
    (hw : u.awaitsStore = true) (hb : u.broadcast = true) : l.hostItemWritten = { l with unanswered := none } := by
  simp [LinkState.hostItemWritten, hu, hw, hb]

/-- After the write of its host item an addressed request can be answered (R172). -/
theorem LinkState.hostItemWritten_addressed {l : LinkState} {u : Unanswered} (hu : l.unanswered = some u)
    (hw : u.awaitsStore = true) (hb : u.broadcast = false) :
    l.hostItemWritten = { l with unanswered := some { u with awaitsStore := false } } := by
  simp [LinkState.hostItemWritten, hu, hw, hb]

section Completed

variable {s : State}

theorem State.completeWrite_none (h : s.mode ≠ .running ∨ s.plant.queue.inFlight = none) : s.completeWrite = s := by
  unfold State.completeWrite
  split
  · next hr hf => simp [hr, hf] at h
  · next hr hf => simp [hr, hf] at h
  · rfl

theorem State.completeWrite_checkpoint {z : Zone} {c : Checkpoint} (hr : s.mode = .running)
    (hf : s.plant.queue.inFlight = some (.checkpoint z c)) :
    s.completeWrite =
      { s with plant := { s.plant with store := s.plant.store.write (.checkpoint z c), queue := s.plant.nextQueue } } := by
  unfold State.completeWrite
  rw [hr, hf, Plant.completeWrite_some hf]

theorem State.completeWrite_host {content : SectionContent} (hr : s.mode = .running)
    (hf : s.plant.queue.inFlight = some (.host content)) :
    s.completeWrite =
      { s with
        plant := { s.plant with store := s.plant.store.write (.host content), queue := s.plant.nextQueue }
        link := s.link.hostItemWritten } := by
  unfold State.completeWrite
  rw [hr, hf, Plant.completeWrite_some hf]

end Completed

/-! ### The statement -/

/-- Settles O47: the place of an item is `placeCheckpoint`'s, the checkpoint is the zone's context as it stands, and a completed
write leaves what `Plant.nextQueue` and `LinkState.hostItemWritten` say. -/
theorem storeWriteRule : Obligations.StoreWriteRule := by
  unfold Obligations.StoreWriteRule
  refine ⟨fun p item z c => ⟨fun hf => Plant.enqueue_free hf item, fun hf => ⟨Plant.enqueue_host_busy hf, fun hn => ?last,
    fun before after d hw hn => ?inPlace⟩, rfl, rfl, rfl, rfl, rfl, rfl, rfl⟩,
    fun u => ⟨rfl, rfl, rfl, rfl, rfl, rfl, fun hs => ?idle, fun hs => ?done, fun ph => ⟨fun hs => ?phase, fun hs hu => ?held⟩⟩,
    fun s => ⟨fun h => congrArg _ (State.completeWrite_none h),
      fun hr => ⟨fun z c hf => ?checkpoint, fun content hf => ?host⟩⟩⟩
  case last =>
    have hp := placeCheckpoint_append (c := c) hn []
    rw [List.append_nil] at hp
    rw [Plant.enqueue_checkpoint_busy hf, hp]
    rfl
  case inPlace => rw [Plant.enqueue_checkpoint_busy hf, hw, placeCheckpoint_append hn, placeCheckpoint_replace]
  case idle => simp [ZoneUnit.checkpoint, ZoneContext.recorded, hs]
  case done => simp [ZoneUnit.checkpoint, ZoneContext.recorded, hs]
  case phase => simp [ZoneUnit.checkpoint, ZoneContext.recorded, hs]
  case held => obtain hs | hs := hs <;> simp [ZoneUnit.checkpoint, ZoneContext.recorded, hs, hu]
  case checkpoint => exact congrArg _ (State.completeWrite_checkpoint hr hf)
  case host =>
    intro store
    have hostWritten {l : LinkState} (hl : s.link.hostItemWritten = l) :
        exec .storeWriteComplete s =
          .next { s with plant := { s.plant with store := store, queue := s.plant.nextQueue }, link := l } := by
      subst hl
      cases content <;> exact congrArg _ (State.completeWrite_host hr hf)
    exact ⟨fun hu => hostWritten (LinkState.hostItemWritten_free hu), fun u hu hw =>
      ⟨fun hb => hostWritten (LinkState.hostItemWritten_broadcast hu hw hb),
        fun hb => hostWritten (LinkState.hostItemWritten_addressed hu hw hb)⟩⟩

end Sys2Proof.Machine
end

section
/-! SUPPORT. Proofs: what the three resets and the loss of the supply leave, and the statement on them (R162, R165, R183). -/

namespace Sys2Proof.Machine

/-- The write in flight touches the store alone, whether it is cut or completed (R162). -/
theorem Plant.cutWrite_eq (p : Plant) : p.cutWrite = { p with store := p.cutWrite.store } := by
  unfold Plant.cutWrite
  split <;> rfl

theorem Plant.flush_eq (p : Plant) : p.flush = { p with store := p.flush.store } := by
  unfold Plant.flush
  split <;> rfl

/-- Of the plant without its running parts only the store depends on the write that was in flight. -/
theorem Plant.quiet_cutWrite (p : Plant) : p.cutWrite.quiet = { p.quiet with store := p.cutWrite.store } :=
  congrArg Plant.quiet p.cutWrite_eq

theorem Plant.quiet_flush (p : Plant) : p.flush.quiet = { p.quiet with store := p.flush.store } :=
  congrArg Plant.quiet p.flush_eq

theorem State.takeReset_powerOn (s : State) :
    s.takeReset .powerOn =
      { s with
        mode := .inReset .powerOn
        resetDrive := true
        link := { cause := { powerOn := true } }
        plant := { s.plant.quiet with store := s.plant.cutWrite.store } } := by
  rw [← Plant.quiet_cutWrite]
  rfl

/-- A pin reset and a commanded one keep the gate and the counters, and add their mark (R165, R183). -/
theorem State.takeReset_kept (s : State) {k : ResetKind} (h : k ≠ .powerOn) :
    s.takeReset k =
      { s with
        mode := .inReset k
        resetDrive := k != .pin
        link :=
          { gate := s.link.gate, checkErrors := s.link.checkErrors, overruns := s.link.overruns
            cause := s.link.cause.take k }
        plant := { s.plant.quiet with store := s.plant.flush.store } } := by
  rw [← Plant.quiet_flush]
  cases k with
  | powerOn => exact absurd rfl h
  | pin => rfl
  | commanded => rfl

theorem State.loseSupply_supplied {s : State} (h : s.mode ≠ .off) :
    s.loseSupply =
      { s with
        mode := .off
        resetDrive := false
        link :=
          { gate := s.link.gate, checkErrors := s.link.checkErrors, overruns := s.link.overruns, cause := s.link.cause }
        plant := { s.plant.quiet with store := s.plant.cutWrite.store } } := by
  unfold State.loseSupply
  split
  · next hm => exact absurd hm h
  · rw [Plant.quiet_cutWrite]

theorem State.loseSupply_off {s : State} (h : s.mode = .off) : s.loseSupply = s := by
  unfold State.loseSupply
  rw [h]

/-- Settles O48: each event leaves the quiet plant, with the write in flight cut or completed in the store. -/
theorem resetRule : Obligations.ResetRule := by
  unfold Obligations.ResetRule
  intro s p l gone kept cut completed
  have hcut : s.plant.cutWrite.store = cut := by
    unfold Plant.cutWrite
    cases hf : s.plant.queue.inFlight with
    | none => simp only [cut, p, hf]
    | some w =>
      simp only [cut, p, hf]
      rcases w with (_ | _ | _ | _ | _ | _) | _ <;> rfl
  have hcompleted : s.plant.flush.store = completed := by
    unfold Plant.flush
    cases hf : s.plant.queue.inFlight <;> simp only [completed, p, hf]
  rw [← hcut, ← hcompleted]
  refine ⟨s.plant.lines.map LineState.quiet, fun i => Table.get_map _ _ i, congrArg _ s.takeReset_powerOn, fun hr => ?pin,
    fun hn => congrArg _ (if_neg hn), fun hr hd => ?commanded, fun hn => congrArg _ (if_neg ?idle),
    fun hn => congrArg _ (State.loseSupply_supplied hn), fun hm => congrArg _ (State.loseSupply_off hm)⟩
  case pin => exact congrArg _ ((if_pos hr).trans (s.takeReset_kept (k := .pin) nofun))
  case commanded => exact congrArg _ ((if_pos ⟨hr, hd⟩).trans (s.takeReset_kept (k := .commanded) nofun))
  case idle =>
    rintro ⟨hr, hd⟩
    exact hn.elim (absurd hr) fun h => nomatch h.symm.trans hd

end Sys2Proof.Machine
end

section
/-! SUPPORT. Proofs: the receiver byte by byte, its discards and its overruns, and the statement on them (R162, R168, R170, R171). -/

namespace Sys2Proof.Machine

/-! ### A frame that is not taken -/

/-- A frame that completes in reset, without supply or while a reply is sent is lost (R162, R168). -/
theorem State.complete_lost {s : State} (h : s.mode ≠ .running ∨ s.link.txen = true) (f : State → State) :
    s.complete f = s := by
  unfold State.complete
  split
  · next hr => rw [if_pos (h.resolve_left (absurd hr))]
  · rfl

/-- A frame that completes while a request is unanswered is counted as an overrun (R171). -/
theorem State.complete_overrun {s : State} (hr : s.mode = .running) (ht : s.link.txen = false)
    (hu : s.link.unanswered.isSome = true) (f : State → State) :
    s.complete f = s.withLink fun l => { l with receiver := .hunt, overruns := min 65535 (l.overruns + 1) } := by
  unfold State.complete
  rw [hr, ht, hu]
  rfl

/-! ### Bytes -/

theorem frameWhole_iff (bytes : List Byte) :
    frameWhole bytes = true ↔ 3 ≤ bytes.length ∧ bytes.length = lengthByte bytes + 5 := by
  simp [frameWhole]

theorem lengthByte_of_third {bytes : List Byte} {n : Byte} (h : bytes[2]? = some n) : lengthByte bytes = n.toNat := by
  simp [lengthByte, List.getD, h]

section Listening

variable {s : State}

theorem State.listening_false_iff : s.listening = false ↔ s.mode ≠ .running ∨ s.link.txen = true := by
  rw [← Bool.not_eq_true, s.listening_iff]
  cases s.link.txen <;> simp

theorem State.takeByte_deaf (h : s.listening = false) (b : Byte) : s.takeByte b = s := by
  unfold State.takeByte
  rw [h]
  rfl

theorem State.takeByte_hunting (hl : s.listening = true) (hr : s.link.receiver = .hunt) (b : Byte) :
    s.takeByte b = if b = 0xC3 then s.withLink fun l => { l with receiver := .frame [b] } else s := by
  unfold State.takeByte
  rw [hl, hr]
  rfl

theorem State.takeByte_frame (hl : s.listening = true) {bytes : List Byte} (hr : s.link.receiver = .frame bytes) (b : Byte) :
    s.takeByte b = s.collect (bytes ++ [b]) := by
  unfold State.takeByte
  rw [hl, hr]
  rfl

/-- A third byte that is no length discards the frame (R170). -/
theorem State.collect_badLength {bytes : List Byte} (h : bytes.length = 3)
    (hn : lengthByte bytes < 3 ∨ 250 < lengthByte bytes) : s.collect bytes = s.checkError := if_pos ⟨h, hn⟩

/-- A byte that neither breaks a frame nor completes it is collected (R170). -/
theorem State.collect_partial {bytes : List Byte} (h : bytes.length = 3 → 3 ≤ lengthByte bytes ∧ lengthByte bytes ≤ 250)
    (hw : 3 ≤ bytes.length → bytes.length ≠ lengthByte bytes + 5) :
    s.collect bytes = s.withLink fun l => { l with receiver := .frame bytes } := by
  unfold State.collect
  rw [if_neg (by rintro ⟨h3, hn⟩; have := h h3; omega), if_neg]
  rw [frameWhole_iff]
  exact fun ⟨h3, he⟩ => hw h3 he

theorem State.discard_listening (h : s.listening = true) : s.discard = s.hunt := if_pos h

theorem State.discard_deaf (h : s.listening = false) : s.discard = s := if_neg (by simp [h])

end Listening

theorem execBadLengthByte_deaf {s : State} (hl : s.listening = false) (b : Byte) : exec (.badLengthByte b) s = .next s := by
  change Host.Outcome.next (if _ then if _ then s.checkError else s else s) = _
  rw [hl, if_neg Bool.false_ne_true, ite_self]

theorem execFrameComplete_deaf {s : State} (hl : s.listening = false) (b : Byte) : exec (.frameComplete b) s = .next s := by
  change Host.Outcome.next (if _ then s.takeByte b else s) = _
  rw [State.takeByte_deaf hl, ite_self]

/-- A third byte told as bad discards the frame as its arrival does (R170). -/
theorem execBadLengthByte_third {s : State} (hl : s.listening = true) {bytes : List Byte}
    (hr : s.link.receiver = .frame bytes) (h : bytes.length = 2) {b : Byte} (hb : b.toNat < 3 ∨ 250 < b.toNat) :
    exec (.badLengthByte b) s = .next s.checkError := by
  have hc : s.collected = bytes := by rw [State.collected, hr]
  exact congrArg _ ((if_pos ⟨hc ▸ h, hb⟩).trans (if_pos hl))

/-- Settles O42: a request as a command is the end of its frame, and what a byte does depends on the bytes collected before it. -/
theorem receiverRule : Obligations.ReceiverRule := by
  unfold Obligations.ReceiverRule
  refine ⟨fun s i env hi => ?requests, fun s => ?bytes⟩
  case requests =>
    obtain ⟨env', kind, hx⟩ := exec_request (i := i) (by rw [hi]; rfl) s
    rw [hx]
    exact ⟨fun h => congrArg _ (State.complete_lost (.inl h) _), fun h => congrArg _ (State.complete_lost (.inr h) _),
      fun hr ht hu => congrArg _ (State.complete_overrun hr ht hu _)⟩
  case bytes =>
    intro deaf became checkError
    refine ⟨fun hd => ?deaf, fun hd => ?listening⟩
    case deaf =>
      have hl : s.listening = false := State.listening_false_iff.2 hd
      have hdiscard : Host.Outcome.next s.discard = (.next s : Host.Outcome State Fault Refusal) :=
        congrArg _ (State.discard_deaf hl)
      exact ⟨hdiscard, hdiscard, hdiscard, fun b =>
        ⟨congrArg _ (State.takeByte_deaf hl b), execBadLengthByte_deaf hl b, execFrameComplete_deaf hl b⟩⟩
    case listening =>
      have hl : s.listening = true := by
        rw [← Bool.not_eq_false, State.listening_false_iff]
        exact hd
      have hdiscard : Host.Outcome.next s.discard = became .hunt := congrArg _ (State.discard_listening hl)
      refine ⟨hdiscard, hdiscard, hdiscard, fun hr => ⟨?sync, fun b hb => ?noise⟩, fun bytes b hr => ?frame⟩
      case sync => exact congrArg _ ((State.takeByte_hunting hl hr _).trans (if_pos rfl))
      case noise => exact congrArg _ ((State.takeByte_hunting hl hr b).trans (if_neg hb))
      case frame =>
        have hlen : (bytes ++ [b]).length = bytes.length + 1 := List.length_append
        have taken : ∀ {t}, s.collect (bytes ++ [b]) = t → exec (.byteArrival b) s = .next t := fun ht =>
          congrArg _ ((State.takeByte_frame hl hr b).trans ht)
        refine ⟨fun h => taken (State.collect_partial (by omega) (by omega)), fun h => ?third, fun n hn hne => ?later⟩
        case third =>
          have hb : lengthByte (bytes ++ [b]) = b.toNat := lengthByte_of_third (h ▸ List.getElem?_concat_length)
          exact ⟨fun hbad =>
              ⟨taken (State.collect_badLength (by omega) (hb ▸ hbad)), execBadLengthByte_third hl hr h hbad⟩,
            fun h3 h250 => taken (State.collect_partial (by omega) (by omega))⟩
        case later =>
          obtain ⟨h2, -⟩ := List.getElem?_eq_some_iff.1 hn
          have hb : lengthByte (bytes ++ [b]) = n.toNat :=
            lengthByte_of_third ((List.getElem?_append_left h2).trans hn)
          exact taken (State.collect_partial (by omega) (by omega))

end Sys2Proof.Machine
end

section
/-! SUPPORT. Proofs: the fields of a payload as they are written and read back, and the statement on the request payloads (R174 to
R176). -/

namespace Sys2Proof

/-! ### Fields (R175) -/

theorem toNat_b8 {n : Nat} (h : n < 256) : (b8 n).toNat = n := by
  rw [b8, BitVec.toNat_ofNat, Nat.mod_eq_of_lt h]

theorem u16_b16 {n : Nat} (h : n < 65536) : u16 (b8 (n / 256)) (b8 n) = n := by
  simp only [u16, b8, BitVec.toNat_ofNat]
  omega

theorem s16_bs16 {n : Int} (hlo : -32768 ≤ n) (hhi : n < 32768) :
    s16 (b8 ((n % 65536).toNat / 256)) (b8 (n % 65536).toNat) = n := by
  have hn : (n % 65536).toNat < 65536 := by omega
  rw [s16, u16_b16 hn, toNat_b8 (by omega)]
  split <;> omega

theorem opt_bopt {o : RawOption} (h : o.wf = true) : opt (b8 o.presence) (b8 o.value) = o := by
  simp only [RawOption.wf, Bool.and_eq_true, decide_eq_true_eq] at h
  simp [opt, toNat_b8, h]

theorem pairsOf_flatMap {pairs : List (Nat × Nat)} (h : ∀ x ∈ pairs, x.1 < 256 ∧ x.2 < 256) :
    pairsOf (pairs.flatMap fun x => [b8 x.1, b8 x.2]) = some pairs := by
  induction pairs with
  | nil => rfl
  | cons x xs ih =>
    obtain ⟨hx, hxs⟩ := List.forall_mem_cons.1 h
    simp [pairsOf, ih hxs, toNat_b8 hx.1, toNat_b8 hx.2]

theorem wordsOf_flatMap {words : List Nat} (h : ∀ x ∈ words, x < 65536) :
    wordsOf (words.flatMap b16) = some words := by
  induction words with
  | nil => rfl
  | cons x xs ih =>
    obtain ⟨hx, hxs⟩ := List.forall_mem_cons.1 h
    simp [wordsOf, b16, ih hxs, u16_b16 hx]

/-! ### Payloads (R174 to R176) -/

/-- What is written for a command is read back as that command, and fits a frame. -/
def Instr.ReadsBack (i : Instr) : Prop :=
  ∀ env kind payload, i.envelope = some env → encodeRequest i = some (kind, payload) →
    parsePayload env kind payload = .request i ∧ payload.length + 3 ≤ 250

namespace Instr.ReadsBack

variable {i : Instr} {env : Envelope} {kind : RequestKind} {payload : List Byte}

theorem of_parse (he : i.envelope = some env) (hk : encodeRequest i = some (kind, payload))
    (hp : parsePayload env kind payload = .request i) (hl : payload.length + 3 ≤ 250) : i.ReadsBack := by
  intro env' kind' payload' he' hk'
  cases he.symm.trans he'
  cases hk.symm.trans hk'
  exact ⟨hp, hl⟩

/-- A request whose payload is empty. -/
theorem of_none (he : i.envelope = some env) (hk : encodeRequest i = some (kind, []))
    (hp : parsePayload env kind [] = .request i) : i.ReadsBack := of_parse he hk hp (by decide)

/-- A request whose payload is one byte. -/
theorem of_byte {b : Bool} {n : Nat} {f : Nat → Instr} (h : (b && fitsByte n) = true) (he : (f n).envelope = some env)
    (hk : encodeRequest (f n) = some (kind, [b8 n])) (hp : ∀ bytes, parsePayload env kind bytes = parse1 f bytes) :
    (f n).ReadsBack := by
  obtain ⟨-, hn⟩ := Bool.and_eq_true_iff.1 h
  have hread : parse1 f [b8 n] = .request (f n) := congrArg (Parsed.request ∘ f) (toNat_b8 (of_decide_eq_true hn))
  exact of_parse he hk ((hp _).trans hread) (show 1 + 3 ≤ 250 by decide)

end Instr.ReadsBack

section Payloads

variable {env : Envelope}

theorem readsBack_acknowledgeAlerts {pairs : List (Nat × Nat)} (h : pairsWf pairs = true) :
    (Instr.acknowledgeAlerts env pairs).ReadsBack := by
  simp only [pairsWf, Bool.and_eq_true, List.all_eq_true, decide_eq_true_eq] at h
  obtain ⟨hlen, hfit⟩ := h
  refine .of_parse rfl rfl ?_ ?_
  · change parseAk env (_ :: _) = _
    rw [parseAk, pairsOf_flatMap hfit]
    exact if_pos (toNat_b8 (by omega)).symm
  · simp only [List.length_cons, List.length_flatMap, List.length_nil, List.map_const', List.sum_replicate_nat]
    omega

theorem readsBack_cwKiln {r : RawKiln} (h : r.wf = true) : (Instr.cwKiln env r).ReadsBack := by
  simp only [RawKiln.wf, Bool.and_eq_true, decide_eq_true_eq] at h
  refine .of_parse rfl rfl ?_ (by decide : 9 + 3 ≤ 250)
  change Parsed.request _ = _
  simp [toNat_b8, s16_bs16, h]

theorem readsBack_cwZone {z : Nat} {r : RawZone} (hz : z < 256) (h : r.wf = true) : (Instr.cwZone env z r).ReadsBack := by
  simp only [RawZone.wf, Bool.and_eq_true, decide_eq_true_eq] at h
  refine .of_parse rfl rfl ?_ (by decide : 23 + 3 ≤ 250)
  change Parsed.request _ = _
  simp [toNat_b8, u16_b16, s16_bs16, hz, h]

theorem readsBack_cwWindow {w : Nat} {r : RawWindow} (hw : w < 256) (h : r.wf = true) :
    (Instr.cwWindow env w r).ReadsBack := by
  simp only [RawWindow.wf, Bool.and_eq_true, decide_eq_true_eq] at h
  refine .of_parse rfl rfl ?_ (by decide : 9 + 3 ≤ 250)
  change Parsed.request _ = _
  simp [toNat_b8, u16_b16, hw, h]

theorem readsBack_cwLine {n : Nat} {r : RawLine} (hn : n < 256) (h : r.wf = true) : (Instr.cwLine env n r).ReadsBack := by
  simp only [RawLine.wf, Bool.and_eq_true, decide_eq_true_eq] at h
  refine .of_parse rfl rfl ?_ (by decide : 8 + 3 ≤ 250)
  change Parsed.request _ = _
  simp [toNat_b8, hn, h]

/-- CR carries an index byte for ZONE, WINDOW and LINE alone (R176). -/
theorem readsBack_configurationRead {item index : Nat} (hitem : item < 7) (hindex : index < 256)
    (h : item = 1 ∨ item = 4 ∨ item = 6 ∨ index = 0) : (Instr.configurationRead env item index).ReadsBack := by
  by_cases hi : item = 1 ∨ item = 4 ∨ item = 6
  · have hk : encodeRequest (.configurationRead env item index) = some (.cr, [b8 item, b8 index]) :=
      congrArg (fun bytes => some (RequestKind.cr, bytes)) (if_pos hi)
    have hread (k : Nat) :
        Parsed.request (.configurationRead env k (u8 (b8 index))) = .request (.configurationRead env k index) :=
      congrArg (fun n => Parsed.request (.configurationRead env k n)) (toNat_b8 hindex)
    refine .of_parse rfl hk ?_ (by decide : 2 + 3 ≤ 250)
    obtain rfl | rfl | rfl := hi
    · exact hread 1
    · exact hread 4
    · exact hread 6
  · obtain rfl : index = 0 := by omega
    have hk : encodeRequest (.configurationRead env item 0) = some (.cr, [b8 item]) :=
      congrArg (fun bytes => some (RequestKind.cr, bytes)) (if_neg hi)
    refine .of_parse rfl hk ?_ (by decide : 1 + 3 ≤ 250)
    obtain rfl | rfl | rfl | rfl : item = 0 ∨ item = 2 ∨ item = 3 ∨ item = 5 := by omega
    all_goals rfl

theorem readsBack_probeWrite {n : Nat} {r : RawProbe} (hn : n < 256) (h : r.wf = true) :
    (Instr.probeWrite env n r).ReadsBack := by
  simp only [RawProbe.wf, Bool.and_eq_true, decide_eq_true_eq] at h
  refine .of_parse rfl rfl ?_ (by decide : 9 + 3 ≤ 250)
  change Parsed.request _ = _
  simp [toNat_b8, opt_bopt, hn, h]

theorem readsBack_speciesWrite {group k : Nat} {knots : List Nat} (hg : group < 256) (hk : k < 65536)
    (hlen : knots.length = 9) (h : ∀ x ∈ knots, x < 65536) : (Instr.speciesWrite env group k knots).ReadsBack := by
  have hwords := wordsOf_flatMap h
  refine .of_parse rfl rfl ?_ ?_
  · change parseGw env (_ :: _ :: _ :: knots.flatMap b16) = _
    rw [parseGw, hwords]
    simp [u16_b16 hk, toNat_b8 hg, hlen]
  · simp [List.length_flatMap, b16, hlen]

theorem readsBack_writeRecord {r : RawStep} (h : r.wf = true) : (Instr.writeRecord env (some r)).ReadsBack := by
  simp only [RawStep.wf, Bool.and_eq_true, decide_eq_true_eq] at h
  refine .of_parse rfl rfl ?_ (by decide : 16 + 3 ≤ 250)
  change Parsed.request _ = _
  simp [toNat_b8, u16_b16, s16_bs16, h]

theorem readsBack_entryTableWrite {z : Nat} {r : RawEntries} (hz : z < 256) (h : r.wf = true) :
    (Instr.entryTableWrite env z r).ReadsBack := by
  simp only [RawEntries.wf, Bool.and_eq_true] at h
  refine .of_parse rfl rfl ?_ (by decide : 11 + 3 ≤ 250)
  change Parsed.request _ = _
  simp [toNat_b8, opt_bopt, hz, h]

end Payloads

/-- The index and the fields of a request that has both fit their encodings. -/
theorem index_and_fields {b fields : Bool} {n : Nat} (h : (b && fitsByte n && fields) = true) : n < 256 ∧ fields = true := by
  simp only [Bool.and_eq_true, decide_eq_true_eq] at h
  obtain ⟨⟨-, hn⟩, hf⟩ := h
  exact ⟨hn, hf⟩

/-- Decode and encode agree, request by request (R174 to R176). -/
theorem Instr.readsBack {i : Instr} (h : i.wellFormed = true) : i.ReadsBack := by
  cases i with
  | identify | status | rsReset | clearCauses | spotResult | readRecord | refreshOverrides | fieldEnable | fieldDisable
  | lineRead => exact .of_none rfl rfl rfl
  | probeRead | excludeProbe | reinstateProbe | spotRequest | speciesRead | setCursor | entryTableRead | startZone | hold
  | resume | skip | abort | reloadStep | clearDone | recover | zoneRead => exact .of_byte h rfl rfl fun _ => rfl
  | delayedStartCancel | delayedStartQuery => exact .of_parse rfl rfl rfl (by decide : 3 + 3 ≤ 250)
  | acknowledgeAlerts env pairs =>
    obtain ⟨-, hp⟩ := Bool.and_eq_true_iff.1 h
    exact readsBack_acknowledgeAlerts hp
  | unlock env code | changeCode env code =>
    change (_ && _) = true at h
    simp only [Bool.and_eq_true, beq_iff_eq] at h
    obtain ⟨-, hlen⟩ := h
    exact .of_parse rfl rfl (if_pos hlen) (by omega)
  | cwKiln env fields =>
    obtain ⟨-, hf⟩ := Bool.and_eq_true_iff.1 h
    exact readsBack_cwKiln hf
  | cwZone env zone fields => exact (index_and_fields h).elim readsBack_cwZone
  | cwWindow env window fields => exact (index_and_fields h).elim readsBack_cwWindow
  | cwLine env line fields => exact (index_and_fields h).elim readsBack_cwLine
  | probeWrite env entry fields => exact (index_and_fields h).elim readsBack_probeWrite
  | entryTableWrite env zone entries => exact (index_and_fields h).elim readsBack_entryTableWrite
  | configurationRead env item index =>
    change (_ && _) = true at h
    simp only [Bool.and_eq_true, Bool.or_eq_true, decide_eq_true_eq, beq_iff_eq, or_assoc] at h
    obtain ⟨⟨⟨-, hitem⟩, hindex⟩, hi⟩ := h
    exact readsBack_configurationRead hitem hindex hi
  | speciesWrite env group k knots =>
    change (_ && _) = true at h
    simp only [Bool.and_eq_true, List.all_eq_true, decide_eq_true_eq, beq_iff_eq] at h
    obtain ⟨⟨⟨⟨-, hg⟩, hk⟩, hlen⟩, hfit⟩ := h
    exact readsBack_speciesWrite hg hk hlen hfit
  | writeRecord env record =>
    cases record with
    | none => exact .of_parse rfl rfl rfl (by decide : 1 + 3 ≤ 250)
    | some r =>
      obtain ⟨-, hr⟩ := Bool.and_eq_true_iff.1 h
      exact readsBack_writeRecord hr
  | cwGroup | cwScan | cwDefault | lineModify =>
    change (_ && _) = true at h
    simp only [Bool.and_eq_true, decide_eq_true_eq] at h
    refine .of_parse rfl rfl ?_ (by decide : 4 + 3 ≤ 250)
    change Parsed.request _ = _
    simp [toNat_b8, u16_b16, h]
  | delayedStartMinutes | override =>
    change (_ && _) = true at h
    simp only [Bool.and_eq_true, decide_eq_true_eq] at h
    refine .of_parse rfl rfl ?_ (by decide : 3 + 3 ≤ 250)
    change Parsed.request _ = _
    simp [toNat_b8, u16_b16, h]
  | releaseOverride | runRecordRead =>
    change (_ && _) = true at h
    simp only [Bool.and_eq_true, decide_eq_true_eq] at h
    refine .of_parse rfl rfl ?_ (by decide : 2 + 3 ≤ 250)
    change Parsed.request _ = _
    simp [toNat_b8, h]
  | _ => exact nofun

/-- Settles O45: the kind bytes name the kind, and what is written for each request is read back. -/
theorem payloadRoundTrip : Obligations.PayloadRoundTrip := by
  unfold Obligations.PayloadRoundTrip
  intro i env kind payload hw he hk
  rw [parseRequest, Machine.kindOf_letters]
  exact Instr.readsBack hw env kind payload he hk

end Sys2Proof
end

section
/-! SUPPORT. Proofs: what the owner of a request can answer and what it leaves of the link, and the statement on the access gate
(R174, R178). -/

namespace Sys2Proof.Machine

/-! ### Answers of the owners -/

/-- The status codes that an owner gives: DENIED and BAD_FORM come from the link's own checks (R174). -/
def Status.ofOwner : Status → Bool
  | .denied | .badForm => false
  | _ => true

/-- What the owner does carries a status code of its own. -/
def Performance.ofOwner : Performance → Bool
  | .answered a => a.status.ofOwner
  | .performed _ a => a.status.ofOwner

theorem Performance.configured_ofOwner (p : Plant) (clamped : Bool) : (Performance.configured p clamped).ofOwner = true := by
  cases clamped <;> rfl

theorem Plant.probeRefusal_ofOwner {p : Plant} {i : Fin 64} {c : ProbeConfig} {status : Status}
    (h : p.probeRefusal i c = some status) : status.ofOwner = true := by
  revert h
  unfold Plant.probeRefusal
  (repeat' split) <;> rintro ⟨⟩ <;> rfl

/-- A request handed to a block below the link, which answers it with a status code of its own. -/
def Delegated (g : State → State × Answer) : Prop :=
  ∃ f : Plant → Performance, (∀ p, (f p).ofOwner = true) ∧ g = fun s => s.ask f

theorem Delegated.ask {f : Plant → Performance} (h : ∀ p, (f p).ofOwner = true) : Delegated fun s => s.ask f := ⟨f, h, rfl⟩

/-- ST, UN and CC are carried out by the link itself, and every other request is handed to a block below it, which answers it in
every branch with a status code of its own (R174). -/
theorem performRequest_forms {i : Instr} {kind : RequestKind} (hk : i.kind = some kind) :
    Delegated (performRequest i) ∨ (kind = .st ∧ performRequest i = performStatus) ∨
      (kind = .un ∧ ∃ code, performRequest i = performUnlock code) ∨
      (kind = .cc ∧ performRequest i = performClearCauses) := by
  cases i with
  | status env => cases hk; exact .inr (.inl ⟨rfl, rfl⟩)
  | unlock env code => cases hk; exact .inr (.inr (.inl ⟨rfl, code, rfl⟩))
  | clearCauses env => cases hk; exact .inr (.inr (.inr ⟨rfl, rfl⟩))
  | identify env => exact .inl (.ask (f := performIdentify) fun _ => rfl)
  | changeCode env code => exact .inl (.ask (f := performChangeCode code) fun _ => rfl)
  | rsReset env => exact .inl (.ask (f := performReset) fun _ => rfl)
  | readRecord env => exact .inl (.ask (f := performReadRecord) fun _ => rfl)
  | delayedStartCancel env => exact .inl (.ask (f := performDelayedStartCancel) fun _ => rfl)
  | delayedStartQuery env => exact .inl (.ask (f := performDelayedStartQuery) fun _ => rfl)
  | refreshOverrides env => exact .inl (.ask (f := performRefreshOverrides) fun _ => rfl)
  | lineRead env => exact .inl (.ask (f := performLineRead) fun _ => rfl)
  | acknowledgeAlerts env pairs => exact .inl (.ask fun p => by unfold performAcknowledge; (repeat' split) <;> rfl)
  | cwKiln env fields =>
    refine .inl (.ask fun p => ?_)
    unfold performCwKiln
    split
    · rfl
    · exact Performance.configured_ofOwner _ _
  | cwZone env zone fields =>
    refine .inl (.ask fun p => ?_)
    unfold performCwZone
    split
    · split
      · rfl
      · exact Performance.configured_ofOwner _ _
    · rfl
  | cwGroup env together limit =>
    refine .inl (.ask fun p => ?_)
    unfold performCwGroup
    split
    · rfl
    · exact Performance.configured_ofOwner _ _
  | cwScan env mode favoured spot => exact .inl (.ask fun p => by unfold performCwScan; (repeat' split) <;> rfl)
  | cwWindow env window fields =>
    refine .inl (.ask fun p => ?_)
    unfold performCwWindow
    split
    · exact Performance.configured_ofOwner _ _
    · rfl
  | cwDefault env settle samples =>
    refine .inl (.ask fun p => ?_)
    unfold performCwDefault
    split
    · exact Performance.configured_ofOwner _ _
    · rfl
  | cwLine env line fields =>
    refine .inl (.ask fun p => ?_)
    unfold performCwLine
    split
    · split
      · rfl
      · exact Performance.configured_ofOwner _ _
    · rfl
  | configurationRead env item index =>
    exact .inl (.ask fun p => by unfold performConfigurationRead; (repeat' split) <;> rfl)
  | probeWrite env entry fields =>
    refine .inl (.ask fun p => ?_)
    unfold performProbeWrite
    split
    · split
      · next h => exact Plant.probeRefusal_ofOwner h
      · rfl
    · rfl
  | probeRead env entry => exact .inl (.ask fun p => by unfold performProbeRead; (repeat' split) <;> rfl)
  | excludeProbe env entry => exact .inl (.ask fun p => by unfold performExcludeProbe; (repeat' split) <;> rfl)
  | reinstateProbe env entry => exact .inl (.ask fun p => by unfold performReinstateProbe; (repeat' split) <;> rfl)
  | spotRequest env entry => exact .inl (.ask fun p => by unfold performSpotRequest; (repeat' split) <;> rfl)
  | spotResult env => exact .inl (.ask fun p => by unfold performSpotResult; (repeat' split) <;> rfl)
  | speciesWrite env group k knots => exact .inl (.ask fun p => by unfold performSpeciesWrite; (repeat' split) <;> rfl)
  | speciesRead env group => exact .inl (.ask fun p => by unfold performSpeciesRead; (repeat' split) <;> rfl)
  | setCursor env index => exact .inl (.ask fun p => by unfold performSetCursor; (repeat' split) <;> rfl)
  | writeRecord env record =>
    have hoffer : ∀ (p : Plant) r, (p.offer r).ofOwner = true := fun p r => by unfold Plant.offer; split <;> rfl
    refine .inl (.ask fun p => ?_)
    unfold performWriteRecord
    split
    · exact hoffer p _
    · split
      · exact hoffer p _
      · rfl
  | entryTableWrite env zone entries =>
    exact .inl (.ask fun p => by unfold performEntryTableWrite; (repeat' split) <;> rfl)
  | entryTableRead env zone => exact .inl (.ask fun p => by unfold performEntryTableRead; (repeat' split) <;> rfl)
  | startZone env zone => exact .inl (.ask fun p => by unfold performStartZone; (repeat' split) <;> rfl)
  | hold env target => exact .inl (.ask fun p => by unfold performHold; (repeat' split) <;> rfl)
  | resume env zone => exact .inl (.ask fun p => by unfold performResume; (repeat' split) <;> rfl)
  | skip env zone => exact .inl (.ask fun p => by unfold performSkip; (repeat' split) <;> rfl)
  | abort env zone => exact .inl (.ask fun p => by unfold performAbort; (repeat' split) <;> rfl)
  | reloadStep env zone => exact .inl (.ask fun p => by unfold performReloadStep; (repeat' split) <;> rfl)
  | clearDone env zone => exact .inl (.ask fun p => by unfold performClearDone; (repeat' split) <;> rfl)
  | recover env zone => exact .inl (.ask fun p => by unfold performRecover; (repeat' split) <;> rfl)
  | delayedStartMinutes env minutes =>
    exact .inl (.ask fun p => by unfold performDelayedStartMinutes; (repeat' split) <;> rfl)
  | override env zone output value => exact .inl (.ask fun p => by unfold performOverride; (repeat' split) <;> rfl)
  | releaseOverride env zone output => exact .inl (.ask fun p => by unfold performReleaseOverride; (repeat' split) <;> rfl)
  | fieldEnable env => exact .inl (.ask fun p => by unfold performFieldEnable; (repeat' split) <;> rfl)
  | fieldDisable env => exact .inl (.ask fun p => by unfold performFieldDisable; (repeat' split) <;> rfl)
  | lineModify env mask values => exact .inl (.ask fun p => by unfold performLineModify; (repeat' split) <;> rfl)
  | zoneRead env zone => exact .inl (.ask fun p => by unfold performZoneRead; (repeat' split) <;> rfl)
  | runRecordRead env zone position =>
    exact .inl (.ask fun p => by unfold performRunRecordRead; (repeat' split) <;> rfl)
  | _ => cases hk

/-! ### What a request leaves of the link -/

theorem State.ask_link (s : State) (f : Plant → Performance) : (s.ask f).1.link = s.link := by
  unfold State.ask
  split <;> rfl

theorem State.ask_status {s : State} {f : Plant → Performance} (h : (f s.plant).ofOwner = true) :
    (s.ask f).2.status.ofOwner = true := by
  unfold State.ask
  cases hf : f s.plant <;> rw [hf] at h <;> exact h

/-- The owner of a request leaves the receiver, and it moves the gate for UN alone (R177, R178). -/
theorem performRequest_link {i : Instr} {kind : RequestKind} (hk : i.kind = some kind) (s : State) :
    (performRequest i s).1.link.receiver = s.link.receiver ∧
      (kind ≠ .un → (performRequest i s).1.link.gate = s.link.gate) := by
  obtain ⟨f, -, hf⟩ | ⟨-, hf⟩ | ⟨hun, code, hf⟩ | ⟨-, hf⟩ := performRequest_forms hk
  · rw [hf, State.ask_link]
    exact ⟨rfl, fun _ => rfl⟩
  · rw [hf]
    exact ⟨rfl, fun _ => rfl⟩
  · rw [hf]
    refine ⟨?_, fun h => absurd hun h⟩
    unfold performUnlock
    (repeat' split) <;> rfl
  · rw [hf]
    exact ⟨rfl, fun _ => rfl⟩

/-- No owner answers BAD_FORM, and none but UN's answers DENIED (R174, R177). -/
theorem performRequest_status {i : Instr} {kind : RequestKind} (hk : i.kind = some kind) (s : State) :
    (performRequest i s).2.status ≠ .badForm ∧ ((performRequest i s).2.status = .denied → kind = .un) := by
  have owned {status : Status} (h : status.ofOwner = true) : status ≠ .badForm ∧ (status = .denied → kind = .un) :=
    ⟨(nomatch · ▸ h), (nomatch · ▸ h)⟩
  obtain ⟨f, hown, hf⟩ | ⟨-, hf⟩ | ⟨hun, code, hf⟩ | ⟨-, hf⟩ := performRequest_forms hk
  · rw [hf]
    exact owned (State.ask_status (hown s.plant))
  · rw [hf]
    exact owned rfl
  · rw [hf]
    refine ⟨?_, fun _ => hun⟩
    unfold performUnlock
    (repeat' split) <;> nofun
  · rw [hf]
    exact owned rfl

/-! ### The gate -/

/-- A request as a command is the completion of a frame of its kind (log entry 12). -/
theorem exec_take {i : Instr} {env : Envelope} {kind : RequestKind} (he : i.envelope = some env) (hk : i.kind = some kind)
    (s : State) : exec i s = .next (s.take env kind (performRequest i)) := by
  cases i with
  | writeRecord env' record => cases record <;> cases he <;> cases hk <;> rfl
  | _ => cases he <;> cases hk <;> rfl

theorem gated_eq_false_iff (kind : RequestKind) :
    kind.gated = false ↔ kind ∈ [.id, .st, .ak, .un, .hd, .sp, .sr, .zr, .rr, .pr, .gr, .sn, .er, .cr, .lr, .sc] := by
  cases kind <;> decide

/-- A gated request outside OPEN is refused DENIED, and nothing else comes of it (R174 check 3, R178). -/
theorem State.take_denied {s : State} {kind : RequestKind} (hr : s.mode = .running) (ht : s.link.txen = false)
    (hu : s.link.unanswered = none) (hk : kind.gated = true) (hg : s.link.gate ≠ .open) (env : Envelope)
    (f : State → State × Answer) : s.take env kind f = s.answered kind env s.plant { status := .denied } := by
  have hdenied : s.hunt.perform kind f = (s.hunt, { status := .denied }) :=
    if_pos (by rw [hk, Bool.true_and, bne_iff_ne]; exact hg)
  rw [State.take, State.complete_ready hr ht hu, ← State.hunt, hdenied]
  exact State.note_hunting s kind env s.plant _

/-- A request that a block below the link carries out does the same in every gate state. -/
theorem State.take_ask_gate {s : State} {kind : RequestKind} (hk : kind.gated = false) (hr : s.mode = .running)
    (ht : s.link.txen = false) (hu : s.link.unanswered = none) (env : Envelope) (f : Plant → Performance) (g : Gate) :
    (s.withLink fun l => { l with gate := g }).take env kind (fun t => t.ask f) =
      (s.take env kind fun t => t.ask f).withLink fun l => { l with gate := g } := by
  have hready : s.Ready kind := State.ready_of_not_gated hk hr ht hu
  have hready' : (s.withLink fun l => { l with gate := g }).Ready kind := State.ready_of_not_gated hk hr ht hu
  have hplant : (s.withLink fun l => { l with gate := g }).plant = s.plant := rfl
  rw [State.take_ask hready, State.take_ask hready', hplant]
  cases f s.plant <;> rfl

/-- The taking of a request other than UN leaves the gate (R178). -/
theorem State.take_gate {s : State} {i : Instr} {kind : RequestKind} (hr : s.mode = .running) (ht : s.link.txen = false)
    (hu : s.link.unanswered = none) (hk : i.kind = some kind) (hun : kind ≠ .un) (env : Envelope) :
    (s.take env kind (performRequest i)).link.gate = s.link.gate := by
  rw [State.take, State.complete_ready hr ht hu, ← State.hunt]
  change (s.hunt.perform kind (performRequest i)).1.link.gate = _
  unfold State.perform
  split
  · rfl
  · exact (performRequest_link hk s.hunt).2 hun

/-- Settles O7: a gated kind is denied outside OPEN, the others are ready in every gate state, and of their owners the link's own
alone see the gate. -/
theorem gateRule : Obligations.GateRule := by
  unfold Obligations.GateRule
  intro s i env kind he hk hr ht hu
  rw [exec_take he hk]
  refine ⟨fun hn hg => ?denied, fun hm => ?answered, fun hm t g hx => ?same, fun hun t hx => ?gate⟩
  case denied =>
    rw [← gated_eq_false_iff, Bool.not_eq_false] at hn
    exact congrArg _ (State.take_denied hr ht hu hn hg env _)
  case answered =>
    have hready : s.Ready kind := State.ready_of_not_gated ((gated_eq_false_iff kind).2 hm) hr ht hu
    refine ⟨_, _, rfl, by rw [State.take_ready hready]; rfl, ?_⟩
    exact (performRequest_status hk s.hunt).2
  case same =>
    have hown : kind.gated = false ∧ kind ≠ .st ∧ kind ≠ .un ∧ kind ≠ .cc := by
      clear hx hk
      revert hm
      cases kind <;> decide
    obtain ⟨hkind, hst, hun, hcc⟩ := hown
    obtain ⟨f, -, hf⟩ | ⟨h, -⟩ | ⟨h, -⟩ | ⟨h, -⟩ := performRequest_forms hk
    · cases hx
      rw [exec_take he hk, hf]
      exact congrArg _ (State.take_ask_gate hkind hr ht hu env f g)
    · exact absurd h hst
    · exact absurd h hun
    · exact absurd h hcc
  case gate =>
    cases hx
    exact State.take_gate hr ht hu hk hun env

end Sys2Proof.Machine
end

section
/-! SUPPORT. Proofs: the payload lengths of the request kinds, and what is asked by a payload of the right length (R174, R175). -/

namespace Sys2Proof

/-! ### The length of a payload -/

/-- The payload of an item has the length of that item, of those listed by item byte; an item beyond the list has no length of its
own (R174, R176; log entry 11). -/
def ItemFits (lengths : List Nat) (payload : List Byte) : Prop :=
  ∃ item rest, payload = item :: rest ∧ ∀ length, lengths[item.toNat]? = some length → payload.length = length

/-- The payload has the length of its kind, with the item bytes of CW and CR and the form byte of SW (R174, R175). -/
def RequestKind.Fits (kind : RequestKind) (payload : List Byte) : Prop :=
  match kind with
  | .id | .st | .rs | .cc | .sr | .sn | .rf | .fe | .fd | .lr => payload.length = 0
  | .pr | .px | .pi | .sp | .gr | .sc | .er | .go | .hd | .rm | .sk | .ab | .rl | .cl | .rv | .zr => payload.length = 1
  | .or | .rr => payload.length = 2
  | .ds | .ov => payload.length = 3
  | .lw => payload.length = 4
  | .un | .cd => payload.length = 8
  | .pw => payload.length = 9
  | .ew => payload.length = 11
  | .gw => payload.length = 21
  | .ak => ∃ count rest, payload = count :: rest ∧ rest.length = 2 * count.toNat
  | .sw => ∃ form rest, payload = form :: rest ∧ ((form = 0 ∧ rest.length = 0) ∨ (form = 1 ∧ rest.length = 15))
  | .cw => ItemFits [9, 23, 4, 4, 9, 4, 8] payload
  | .cr => ItemFits [1, 2, 1, 1, 2, 1, 2] payload

/-! ### What a payload asks (R174 check 2) -/

/-- What is asked is of a kind: an undefined value of it, or a request of it. -/
def Parsed.Asks (kind : RequestKind) : Parsed → Prop
  | .badForm => False
  | .undefinedValue k => k = kind
  | .request i => i.kind = some kind

/-- A payload asks something of a kind where it fits, and is a bad form where it does not. -/
def Parsed.Judges (kind : RequestKind) (fits : Prop) (x : Parsed) : Prop := (fits → x.Asks kind) ∧ (¬fits → x = .badForm)

/-- What holds of every list of `n` bytes and what of every other list, said byte by byte. -/
def ByLength : Nat → (List Byte → Prop) → (List Byte → Prop) → Prop
  | 0, here, elsewhere => here [] ∧ ∀ a rest, elsewhere (a :: rest)
  | n + 1, here, elsewhere => elsewhere [] ∧ ∀ a, ByLength n (fun rest => here (a :: rest)) fun rest => elsewhere (a :: rest)

theorem ByLength.of_list {n : Nat} {here elsewhere : List Byte → Prop} (h : ByLength n here elsewhere) (bytes : List Byte) :
    (bytes.length = n → here bytes) ∧ (bytes.length ≠ n → elsewhere bytes) := by
  induction n generalizing here elsewhere bytes with
  | zero =>
    obtain ⟨hnil, hcons⟩ := h
    cases bytes with
    | nil => exact ⟨fun _ => hnil, fun hne => absurd rfl hne⟩
    | cons a rest => exact ⟨nofun, fun _ => hcons a rest⟩
  | succ n ih =>
    obtain ⟨hnil, hcons⟩ := h
    cases bytes with
    | nil => exact ⟨nofun, fun _ => hnil⟩
    | cons a rest => simpa using ih (hcons a) rest

/-- A reading of exactly `n` bytes. -/
abbrev ReadsBytes (n : Nat) (kind : RequestKind) (f : List Byte → Parsed) : Prop :=
  ByLength n (fun bytes => (f bytes).Asks kind) fun bytes => f bytes = .badForm

section Judged

variable {env : Envelope} {payload : List Byte} {kind : RequestKind}

theorem ReadsBytes.judges {n : Nat} {f : List Byte → Parsed} (h : ReadsBytes n kind f) (payload : List Byte) :
    (f payload).Judges kind (payload.length = n) := h.of_list payload

theorem judges_of_ite {i : Instr} (hi : i.kind = some kind) (c : Prop) [Decidable c] :
    (if c then Parsed.request i else .badForm).Judges kind c :=
  ⟨fun h => by rw [if_pos h]; exact hi, fun h => if_neg h⟩

theorem parse0_reads {i : Instr} (hi : i.kind = some kind) : ReadsBytes 0 kind (parse0 i) := ⟨hi, fun _ _ => rfl⟩

theorem parse1_reads {f : Nat → Instr} (hf : ∀ n, (f n).kind = some kind) : ReadsBytes 1 kind (parse1 f) :=
  ⟨rfl, fun a => ⟨hf (u8 a), fun _ _ => rfl⟩⟩

/-! ### Lists of pairs and of words -/

theorem length_of_pairsOf {bytes : List Byte} {pairs : List (Nat × Nat)} (h : pairsOf bytes = some pairs) :
    bytes.length = 2 * pairs.length := by
  induction bytes using pairsOf.induct generalizing pairs with
  | case1 => cases h; rfl
  | case2 => cases h
  | case3 a b rest ih =>
    obtain ⟨l, hl, rfl⟩ := Option.map_eq_some_iff.1 h
    simp only [List.length_cons, ih hl]
    omega

theorem odd_of_pairsOf {bytes : List Byte} (h : pairsOf bytes = none) : bytes.length % 2 = 1 := by
  induction bytes using pairsOf.induct with
  | case1 => cases h
  | case2 => rfl
  | case3 a b rest ih =>
    have := ih (Option.map_eq_none_iff.1 h)
    simp only [List.length_cons]
    omega

theorem length_of_wordsOf {bytes : List Byte} {words : List Nat} (h : wordsOf bytes = some words) :
    bytes.length = 2 * words.length := by
  induction bytes using wordsOf.induct generalizing words with
  | case1 => cases h; rfl
  | case2 => cases h
  | case3 a b rest ih =>
    obtain ⟨l, hl, rfl⟩ := Option.map_eq_some_iff.1 h
    simp only [List.length_cons, ih hl]
    omega

theorem odd_of_wordsOf {bytes : List Byte} (h : wordsOf bytes = none) : bytes.length % 2 = 1 := by
  induction bytes using wordsOf.induct with
  | case1 => cases h
  | case2 => rfl
  | case3 a b rest ih =>
    have := ih (Option.map_eq_none_iff.1 h)
    simp only [List.length_cons]
    omega

theorem parseAk_judges : (parseAk env payload).Judges .ak (RequestKind.Fits .ak payload) := by
  cases payload with
  | nil => exact ⟨nofun, fun _ => rfl⟩
  | cons n rest =>
    have hfits : RequestKind.Fits .ak (n :: rest) ↔ rest.length = 2 * u8 n := by simp [RequestKind.Fits]
    rw [hfits, parseAk]
    cases hp : pairsOf rest with
    | none =>
      have hodd := odd_of_pairsOf hp
      exact ⟨fun h => by omega, fun _ => rfl⟩
    | some pairs =>
      have hlen := length_of_pairsOf hp
      have hiff : pairs.length = u8 n ↔ rest.length = 2 * u8 n := by omega
      rw [← hiff]
      exact judges_of_ite rfl _

theorem parseGw_judges : (parseGw env payload).Judges .gw (payload.length = 21) := by
  rcases payload with _ | ⟨g, _ | ⟨a, _ | ⟨b, rest⟩⟩⟩
  · exact ⟨nofun, fun _ => rfl⟩
  · exact ⟨nofun, fun _ => rfl⟩
  · exact ⟨nofun, fun _ => rfl⟩
  · have hfits : (g :: a :: b :: rest).length = 21 ↔ rest.length = 18 := by simp
    rw [hfits, parseGw]
    cases hw : wordsOf rest with
    | none =>
      have hodd := odd_of_wordsOf hw
      exact ⟨fun h => by omega, fun _ => rfl⟩
    | some words =>
      have hlen := length_of_wordsOf hw
      have hiff : words.length = 9 ↔ rest.length = 18 := by omega
      rw [← hiff]
      exact judges_of_ite rfl _

/-! ### Items and forms -/

theorem byte_eq {a : Byte} {k : Nat} (h : u8 a = k) : a = b8 k := by
  subst h
  exact BitVec.eq_of_toNat_eq (toNat_b8 a.isLt).symm

/-- An item of a list of lengths is judged by the bytes that follow its item byte. -/
theorem judges_of_item {lengths : List Nat} {item : Byte} {k n : Nat} {f : List Byte → Parsed} (hk : u8 item = k)
    (hn : lengths[k]? = some (n + 1)) (h : ReadsBytes n kind fun rest => f (b8 k :: rest)) (rest : List Byte) :
    (f (item :: rest)).Judges kind (ItemFits lengths (item :: rest)) := by
  have hfits : ItemFits lengths (item :: rest) ↔ rest.length = n := by simp [ItemFits, show item.toNat = k from hk, hn]
  rw [hfits, byte_eq hk]
  exact h.judges rest

theorem judges_of_undefined {lengths : List Nat} {item : Byte} {rest : List Byte} (hk : lengths.length ≤ u8 item)
    {x : Parsed} (hx : x = .undefinedValue kind) : x.Judges kind (ItemFits lengths (item :: rest)) := by
  have hfits : ItemFits lengths (item :: rest) :=
    ⟨item, rest, rfl, fun length h => nomatch (List.getElem?_eq_none hk).symm.trans h⟩
  subst hx
  exact ⟨fun _ => rfl, fun h => absurd hfits h⟩

theorem not_itemFits_nil {lengths : List Nat} : ¬ItemFits lengths [] := by simp [ItemFits]

/-- The seven items of R176, and the undefined ones. -/
theorem item_cases (n : Nat) : n = 0 ∨ n = 1 ∨ n = 2 ∨ n = 3 ∨ n = 4 ∨ n = 5 ∨ n = 6 ∨ 7 ≤ n := by omega

theorem parseCw_undefined {item : Byte} (h : 7 ≤ u8 item) (rest : List Byte) :
    parseCw env (item :: rest) = .undefinedValue .cw := by
  obtain ⟨m, hm⟩ := Nat.exists_eq_add_of_le' h
  unfold parseCw
  dsimp only
  rw [hm]
  rfl

theorem parseCr_undefined {item : Byte} (h : 7 ≤ u8 item) (rest : List Byte) :
    parseCr env (item :: rest) = .undefinedValue .cr := by
  obtain ⟨m, hm⟩ := Nat.exists_eq_add_of_le' h
  unfold parseCr
  dsimp only
  rw [hm]
  exact if_neg (by omega)

theorem parseCw_judges : (parseCw env payload).Judges .cw (RequestKind.Fits .cw payload) := by
  cases payload with
  | nil => exact ⟨fun h => absurd h not_itemFits_nil, fun _ => rfl⟩
  | cons item rest =>
    change Parsed.Judges _ (ItemFits _ _) _
    obtain h | h | h | h | h | h | h | h := item_cases (u8 item)
    · refine judges_of_item h rfl ?_ rest
      iterate 8 refine ⟨rfl, fun _ => ?_⟩
      exact ⟨rfl, fun _ _ => rfl⟩
    · refine judges_of_item h rfl ?_ rest
      iterate 22 refine ⟨rfl, fun _ => ?_⟩
      exact ⟨rfl, fun _ _ => rfl⟩
    · refine judges_of_item h rfl ?_ rest
      iterate 3 refine ⟨rfl, fun _ => ?_⟩
      exact ⟨rfl, fun _ _ => rfl⟩
    · refine judges_of_item h rfl ?_ rest
      iterate 3 refine ⟨rfl, fun _ => ?_⟩
      exact ⟨rfl, fun _ _ => rfl⟩
    · refine judges_of_item h rfl ?_ rest
      iterate 8 refine ⟨rfl, fun _ => ?_⟩
      exact ⟨rfl, fun _ _ => rfl⟩
    · refine judges_of_item h rfl ?_ rest
      iterate 3 refine ⟨rfl, fun _ => ?_⟩
      exact ⟨rfl, fun _ _ => rfl⟩
    · refine judges_of_item h rfl ?_ rest
      iterate 7 refine ⟨rfl, fun _ => ?_⟩
      exact ⟨rfl, fun _ _ => rfl⟩
    · exact judges_of_undefined (by exact h) (parseCw_undefined h rest)

theorem parseCr_judges : (parseCr env payload).Judges .cr (RequestKind.Fits .cr payload) := by
  cases payload with
  | nil => exact ⟨fun h => absurd h not_itemFits_nil, fun _ => rfl⟩
  | cons item rest =>
    change Parsed.Judges _ (ItemFits _ _) _
    have bare {k : Nat} (hk : u8 item = k) (hn : ([1, 2, 1, 1, 2, 1, 2] : List Nat)[k]? = some 1)
        (h : ReadsBytes 0 .cr fun rest => parseCr env (b8 k :: rest)) := judges_of_item hk hn h rest
    have indexed {k : Nat} (hk : u8 item = k) (hn : ([1, 2, 1, 1, 2, 1, 2] : List Nat)[k]? = some 2)
        (h : ReadsBytes 1 .cr fun rest => parseCr env (b8 k :: rest)) := judges_of_item hk hn h rest
    obtain h | h | h | h | h | h | h | h := item_cases (u8 item)
    · exact bare h rfl ⟨rfl, fun _ _ => rfl⟩
    · exact indexed h rfl ⟨rfl, fun _ => ⟨rfl, fun _ _ => rfl⟩⟩
    · exact bare h rfl ⟨rfl, fun _ _ => rfl⟩
    · exact bare h rfl ⟨rfl, fun _ _ => rfl⟩
    · exact indexed h rfl ⟨rfl, fun _ => ⟨rfl, fun _ _ => rfl⟩⟩
    · exact bare h rfl ⟨rfl, fun _ _ => rfl⟩
    · exact indexed h rfl ⟨rfl, fun _ => ⟨rfl, fun _ _ => rfl⟩⟩
    · exact judges_of_undefined (by exact h) (parseCr_undefined h rest)

/-- Of the payloads of SW with more than a form byte those of sixteen bytes are read, where the form byte is 1 (R174, R175). -/
theorem parseSw_record (f a : Byte) :
    ByLength 14
      (fun rest =>
        ∃ i : Instr, i.kind = some .sw ∧ parseSw env (f :: a :: rest) = if u8 f = 1 then .request i else .badForm)
      fun rest => parseSw env (f :: a :: rest) = .badForm := by
  iterate 14 refine ⟨rfl, fun _ => ?_⟩
  exact ⟨⟨_, rfl, rfl⟩, fun _ _ => rfl⟩

theorem fits_sw_cons_iff {f : Byte} {rest : List Byte} :
    RequestKind.Fits .sw (f :: rest) ↔ (u8 f = 0 ∧ rest.length = 0) ∨ (u8 f = 1 ∧ rest.length = 15) := by
  have hform (k : Nat) (hk : k < 256) : f = b8 k ↔ u8 f = k := ⟨fun e => e ▸ toNat_b8 hk, byte_eq⟩
  rw [← hform 0 (by decide), ← hform 1 (by decide)]
  exact ⟨fun ⟨_, _, e, h⟩ => by cases e; exact h, fun h => ⟨f, rest, rfl, h⟩⟩

theorem parseSw_judges : (parseSw env payload).Judges .sw (RequestKind.Fits .sw payload) := by
  rcases payload with _ | ⟨f, _ | ⟨a, rest⟩⟩
  · exact ⟨nofun, fun _ => rfl⟩
  · have hfits : RequestKind.Fits .sw [f] ↔ u8 f = 0 := by simp [fits_sw_cons_iff]
    rw [hfits]
    exact judges_of_ite rfl (u8 f = 0)
  · obtain ⟨hhere, helsewhere⟩ := (parseSw_record (env := env) f a).of_list rest
    by_cases hl : rest.length = 14
    · obtain ⟨i, hi, hread⟩ := hhere hl
      have hfits : RequestKind.Fits .sw (f :: a :: rest) ↔ u8 f = 1 := by simp [fits_sw_cons_iff, hl]
      rw [hread, hfits]
      exact judges_of_ite hi _
    · have hfits : ¬RequestKind.Fits .sw (f :: a :: rest) := by simp [fits_sw_cons_iff, hl]
      exact ⟨fun h => absurd h hfits, fun _ => helsewhere hl⟩

theorem parseDs_judges : (parseDs env payload).Judges .ds (payload.length = 3) := by
  refine ReadsBytes.judges (n := 3) ⟨rfl, fun f => ⟨rfl, fun a => ⟨rfl, fun b => ⟨?_, fun _ _ => rfl⟩⟩⟩⟩ payload
  change (parseDs env [f, a, b]).Asks .ds
  unfold parseDs
  dsimp only
  split <;> rfl

/-- What is asked by a payload that has the length of its kind, and by one that has not (R174 check 2). -/
theorem parsePayload_judges (kind : RequestKind) : (parsePayload env kind payload).Judges kind (kind.Fits payload) := by
  cases kind with
  | id | st | rs | cc | sr | sn | rf | fe | fd | lr => exact (parse0_reads rfl).judges payload
  | pr | px | pi | sp | gr | sc | er | go | hd | rm | sk | ab | rl | cl | rv | zr =>
    exact (parse1_reads fun _ => rfl).judges payload
  | un | cd => exact judges_of_ite rfl (payload.length = 8)
  | ak => exact parseAk_judges
  | gw => exact parseGw_judges
  | sw => exact parseSw_judges
  | ds => exact parseDs_judges
  | cw => exact parseCw_judges
  | cr => exact parseCr_judges
  | or | rr =>
    refine ReadsBytes.judges (n := 2) ?_ payload
    iterate 2 refine ⟨rfl, fun _ => ?_⟩
    exact ⟨rfl, fun _ _ => rfl⟩
  | ov =>
    refine ReadsBytes.judges (n := 3) ?_ payload
    iterate 3 refine ⟨rfl, fun _ => ?_⟩
    exact ⟨rfl, fun _ _ => rfl⟩
  | lw =>
    refine ReadsBytes.judges (n := 4) ?_ payload
    iterate 4 refine ⟨rfl, fun _ => ?_⟩
    exact ⟨rfl, fun _ _ => rfl⟩
  | pw =>
    refine ReadsBytes.judges (n := 9) ?_ payload
    iterate 9 refine ⟨rfl, fun _ => ?_⟩
    exact ⟨rfl, fun _ _ => rfl⟩
  | ew =>
    refine ReadsBytes.judges (n := 11) ?_ payload
    iterate 11 refine ⟨rfl, fun _ => ?_⟩
    exact ⟨rfl, fun _ _ => rfl⟩

end Judged

end Sys2Proof
end

section
/-! SUPPORT. Proofs: a complete frame judged, and the statement on the judgement (R168 to R171, R174). -/

namespace Sys2Proof.Machine

/-! ### Whole frames (R170) -/

/-- A frame by its bytes: sync, station, n, the two kind bytes, the tag, the payload and the two CRC bytes. -/
def frameOf (station n k l tag : Byte) (payload : List Byte) (hi lo : Byte) : List Byte :=
  0xC3 :: ([station, n, k, l, tag] ++ payload) ++ [hi, lo]

section Frame

variable {station n k l tag : Byte} {payload : List Byte} {hi lo : Byte}

theorem frameOf_eq_concat : frameOf station n k l tag payload hi lo =
    ([0xC3] ++ ([station, n, k, l, tag] ++ payload) ++ [hi]) ++ [lo] := by
  simp [frameOf]

theorem length_frameOf : (frameOf station n k l tag payload hi lo).length = payload.length + 8 := by
  simp [frameOf]

theorem lengthByte_frameOf : lengthByte (frameOf station n k l tag payload hi lo) = n.toNat := rfl

theorem frameWhole_frameOf (hn : payload.length + 3 = n.toNat) :
    frameWhole (frameOf station n k l tag payload hi lo) = true := by
  rw [frameWhole_iff, lengthByte_frameOf, length_frameOf]
  omega

/-- The CRC of a frame covers its bytes 1 to 2 + n (R170). -/
theorem crcBad_frameOf (hn : payload.length + 3 = n.toNat) :
    crcBad (frameOf station n k l tag payload hi lo) = true ↔
      crcBytes (crcOf ([station, n, k, l, tag] ++ payload)) ≠ [hi, lo] := by
  have hbody : ([station, n, k, l, tag] ++ payload).length = n.toNat + 2 := by
    simp
    omega
  have hdrop : (frameOf station n k l tag payload hi lo).drop (n.toNat + 3) = [hi, lo] :=
    List.drop_left' (congrArg Nat.succ hbody)
  have htake : ((frameOf station n k l tag payload hi lo).drop 1).take (n.toNat + 2) =
      [station, n, k, l, tag] ++ payload := List.take_left' hbody
  simp only [crcBad, lengthByte_frameOf, hdrop, htake]
  exact bne_iff_ne

end Frame

/-- The station byte is that of the part, or 0 for a broadcast (R169). -/
theorem Straps.addressed_mine {straps : Straps} {station : Byte} (h : station = 0 ∨ station.toNat = straps.station) :
    straps.addressed station = some (decide (station = 0)) := by
  unfold Straps.addressed
  by_cases h0 : station = 0
  · rw [if_pos h0, decide_eq_true h0]
  · rw [if_neg h0, if_pos (h.resolve_left h0), decide_eq_false h0]

theorem Straps.addressed_other {straps : Straps} {station : Byte} (h : ¬(station = 0 ∨ station.toNat = straps.station)) :
    straps.addressed station = none := by
  rw [not_or] at h
  rw [Straps.addressed, if_neg h.1, if_neg h.2]

/-! ### The judgement (R171) -/

section Judgement

variable {s : State} {station n k l tag : Byte} {payload : List Byte} {hi lo : Byte}

theorem State.judgeFrame_bad (hn : payload.length + 3 = n.toNat)
    (hc : crcBytes (crcOf ([station, n, k, l, tag] ++ payload)) ≠ [hi, lo]) :
    s.judgeFrame (frameOf station n k l tag payload hi lo) = s.checkError := if_pos ((crcBad_frameOf hn).2 hc)

/-- A frame with a good CRC goes by its station byte. -/
theorem State.judgeFrame_good (hn : payload.length + 3 = n.toNat)
    (hc : crcBytes (crcOf ([station, n, k, l, tag] ++ payload)) = [hi, lo]) :
    s.judgeFrame (frameOf station n k l tag payload hi lo) =
      match s.plant.straps.addressed station with
      | none => s.hunt
      | some broadcast => s.takeFrame { broadcast := broadcast, tag := tag.toNat } (k, l) payload := by
  have hpayload : ((frameOf station n k l tag payload hi lo).drop 6).take (n.toNat - 3) = payload :=
    List.take_left' (l₁ := payload) (by omega)
  unfold State.judgeFrame
  rw [if_neg (mt (crcBad_frameOf hn).1 (not_not_intro hc)), lengthByte_frameOf, hpayload]
  rfl

theorem State.judgeFrame_other (hn : payload.length + 3 = n.toNat)
    (hc : crcBytes (crcOf ([station, n, k, l, tag] ++ payload)) = [hi, lo])
    (hm : ¬(station = 0 ∨ station.toNat = s.plant.straps.station)) :
    s.judgeFrame (frameOf station n k l tag payload hi lo) = s.hunt := by
  rw [State.judgeFrame_good hn hc, Straps.addressed_other hm]

theorem State.judgeFrame_mine (hn : payload.length + 3 = n.toNat)
    (hc : crcBytes (crcOf ([station, n, k, l, tag] ++ payload)) = [hi, lo])
    (hm : station = 0 ∨ station.toNat = s.plant.straps.station) :
    s.judgeFrame (frameOf station n k l tag payload hi lo) =
      s.takeFrame { broadcast := decide (station = 0), tag := tag.toNat } (k, l) payload := by
  rw [State.judgeFrame_good hn hc, Straps.addressed_mine hm]

/-- The byte that completes a frame has it judged (R170, R171). -/
theorem State.takeByte_whole {bytes : List Byte} {b : Byte} (hl : s.listening = true) (hr : s.link.receiver = .frame bytes)
    (hw : frameWhole (bytes ++ [b]) = true) : s.takeByte b = s.judgeFrame (bytes ++ [b]) := by
  obtain ⟨-, hlen⟩ := (frameWhole_iff _).1 hw
  rw [State.takeByte_frame hl hr, State.collect, if_neg (by omega), if_pos hw]

/-- FRAME_COMPLETE is the arrival of the byte that completes the frame. -/
theorem exec_frameComplete_whole {bytes : List Byte} {b : Byte} (hr : s.link.receiver = .frame bytes)
    (hw : frameWhole (bytes ++ [b]) = true) : exec (.frameComplete b) s = .next (s.takeByte b) := by
  have hc : s.collected = bytes := by rw [State.collected, hr]
  exact congrArg _ (if_pos (hc ▸ hw))

end Judgement

/-! ### What a taken frame asks (R174) -/

section Asked

variable {env : Envelope} {payload : List Byte}

theorem State.answerFrame_unknown (s : State) {letters : Byte × Byte} (h : ∀ kind : RequestKind, kind.letters ≠ letters) :
    s.answerFrame env letters payload = (s, { status := .badForm }) := by
  have hnone : kindOf letters = none := List.find?_eq_none.2 fun kind _ => by simpa using h kind
  rw [State.answerFrame, hnone]

theorem State.answerFrame_known (s : State) (kind : RequestKind) :
    s.answerFrame env kind.letters payload = s.answerPayload env kind payload := by
  rw [State.answerFrame, kindOf_letters]

theorem State.answerPayload_wrong (s : State) {kind : RequestKind} (h : ¬kind.Fits payload) :
    s.answerPayload env kind payload = (s, { status := .badForm }) := by
  obtain ⟨-, hbad⟩ := parsePayload_judges (env := env) (payload := payload) kind
  rw [State.answerPayload, hbad h]

/-- A payload of the right length is refused for the gate, for an undefined value, or by the owner, and never BAD_FORM; and what is
asked leaves the receiver (R174). -/
theorem State.answerPayload_fits (s : State) {kind : RequestKind} (h : kind.Fits payload) :
    (s.answerPayload env kind payload).1.link.receiver = s.link.receiver ∧
      (s.answerPayload env kind payload).2.status ≠ .badForm := by
  obtain ⟨hasks, -⟩ := parsePayload_judges (env := env) (payload := payload) kind
  replace hasks := hasks h
  unfold State.answerPayload
  cases hp : parsePayload env kind payload with
  | badForm => rw [hp] at hasks; cases hasks
  | undefinedValue k =>
    dsimp only
    unfold State.perform
    split <;> exact ⟨rfl, nofun⟩
  | request i =>
    rw [hp] at hasks
    dsimp only
    unfold State.perform
    split
    · exact ⟨rfl, nofun⟩
    · exact ⟨(performRequest_link hasks s).1, (performRequest_status hasks s).1⟩

theorem State.answerFrame_receiver (s : State) (env : Envelope) (letters : Byte × Byte) (payload : List Byte) :
    (s.answerFrame env letters payload).1.link.receiver = s.link.receiver := by
  by_cases hk : ∃ kind : RequestKind, kind.letters = letters
  · obtain ⟨kind, rfl⟩ := hk
    rw [State.answerFrame_known]
    by_cases hf : kind.Fits payload
    · exact (s.answerPayload_fits hf).1
    · rw [State.answerPayload_wrong s hf]
  · rw [State.answerFrame_unknown s fun kind e => hk ⟨kind, e⟩]

/-- A frame of a bad form is answered BAD_FORM, and nothing else comes of it (R174 check 2). -/
theorem State.note_badForm (s : State) (env : Envelope) (letters : Byte × Byte) :
    State.note (s.hunt, { status := .badForm }) env letters =
      { s with
        link :=
          { s.link with
            receiver := .hunt
            unanswered :=
              some
                { kind := letters
                  tag := env.tag
                  broadcast := env.broadcast
                  answer := { status := .badForm }
                  awaitsStore := false
                  resets := false } } } := by
  simp [State.note, State.hunt, State.withLink]

theorem State.takeFrame_ready {s : State} (hr : s.mode = .running) (ht : s.link.txen = false)
    (hu : s.link.unanswered = none) (letters : Byte × Byte) :
    s.takeFrame env letters payload = State.note (s.hunt.answerFrame env letters payload) env letters :=
  State.complete_ready hr ht hu _

end Asked

/-- Settles O43: the byte has the frame judged, by its CRC, its station, the unanswered request and the form of its payload. -/
theorem frameJudgementRule : Obligations.FrameJudgementRule := by
  unfold Obligations.FrameJudgementRule
  intro s station n k l tag payload hi lo hr ht hn body good broadcast mine fits left hrec
  have hfits : ∀ kind, fits kind ↔ kind.Fits payload := fun kind => by cases kind <;> exact Iff.rfl
  have hl : s.listening = true := s.listening_iff.2 ⟨hr, ht⟩
  have hw := frameWhole_frameOf (station := station) (k := k) (l := l) (tag := tag) (hi := hi) (lo := lo) hn
  rw [frameOf_eq_concat] at hw
  have hbyte := State.takeByte_whole hl hrec hw
  rw [← frameOf_eq_concat] at hbyte
  have hcomplete := exec_frameComplete_whole hrec hw
  have judged : ∀ {t}, s.judgeFrame (frameOf station n k l tag payload hi lo) = t → exec (.frameComplete lo) s = .next t :=
    fun ht => hcomplete.trans (congrArg _ (hbyte.trans ht))
  refine ⟨hcomplete.symm, fun hc => judged (State.judgeFrame_bad hn hc), fun hc hm => judged (State.judgeFrame_other hn hc hm),
    fun hc hm hu => ?overrun, fun hc hm hu => ?taken⟩
  case overrun =>
    exact judged ((State.judgeFrame_mine hn hc hm).trans (State.complete_overrun hr ht hu _))
  case taken =>
    have hx := judged ((State.judgeFrame_mine hn hc hm).trans (State.takeFrame_ready hr ht hu (k, l)))
    refine ⟨⟨_, _, hx, State.answerFrame_receiver _ _ _ _, rfl, rfl, rfl, rfl⟩, fun hform => ?badForm,
      fun kind hkind hf => ⟨_, _, hx, rfl, ?fits⟩⟩
    case badForm =>
      have hbad : s.hunt.answerFrame { broadcast := decide (station = 0), tag := tag.toNat } (k, l) payload =
          (s.hunt, { status := .badForm }) := by
        obtain hnone | ⟨kind, hkind, hf⟩ := hform
        · exact State.answerFrame_unknown _ hnone
        · rw [← hkind, State.answerFrame_known]
          exact State.answerPayload_wrong _ (mt (hfits kind).2 hf)
      rw [hx, hbad, State.note_badForm]
    case fits =>
      change (s.hunt.answerFrame _ (k, l) payload).2.status ≠ .badForm
      rw [← hkind, State.answerFrame_known]
      exact (State.answerPayload_fits _ ((hfits kind).1 hf)).2

end Sys2Proof.Machine
end

section
/-! SUPPORT. Proofs: a request as the frame that carries it, byte by byte, and the statement on it (R168 to R171, R174, R175). -/

namespace Sys2Proof.Machine

/-! ### The frame that carries a request (R170) -/

theorem requestFrame_eq (station : Nat) (kind : RequestKind) (tag : Nat) (payload : List Byte) :
    ∃ hi lo, crcBytes (crcOf ([b8 station, b8 (payload.length + 3), kind.letters.1, kind.letters.2, b8 tag] ++ payload)) =
        [hi, lo] ∧
      requestFrame station kind tag payload =
        frameOf (b8 station) (b8 (payload.length + 3)) kind.letters.1 kind.letters.2 (b8 tag) payload hi lo :=
  ⟨_, _, rfl, rfl⟩

/-- A station is 1 to 31 (R169). -/
theorem Straps.station_bounds (straps : Straps) : 1 ≤ straps.station ∧ straps.station ≤ 31 := by
  have hlt := straps.sta.isLt
  unfold Straps.station
  split
  · decide
  · next h =>
    rw [← BitVec.toNat_inj] at h
    have : straps.sta.toNat ≠ 0 := h
    omega

/-- The station byte of a request tells a broadcast from a frame addressed to the part (R169). -/
theorem stationByte_mine (straps : Straps) (broadcast : Bool) :
    let station := b8 (if broadcast then 0 else straps.station)
    (station = 0 ∨ station.toNat = straps.station) ∧ decide (station = 0) = broadcast := by
  obtain ⟨hlo, hhi⟩ := straps.station_bounds
  cases broadcast with
  | true => exact ⟨.inl rfl, rfl⟩
  | false =>
    have htoNat : (b8 straps.station).toNat = straps.station := toNat_b8 (by omega)
    refine ⟨.inr htoNat, decide_eq_false fun h => ?_⟩
    rw [if_neg Bool.false_ne_true] at h
    rw [h] at htoNat
    exact absurd htoNat (by simp; omega)

section Carried

variable {i : Instr} {env : Envelope} {kind : RequestKind} {payload : List Byte}

theorem kind_of_encode (hk : encodeRequest i = some (kind, payload)) : i.kind = some kind := by rw [Instr.kind, hk]; rfl

theorem tag_fits (hw : i.wellFormed = true) (he : i.envelope = some env) : env.tag < 256 := by
  cases i with
  | identify | status | rsReset | clearCauses | spotResult | readRecord | delayedStartCancel | delayedStartQuery
  | refreshOverrides | fieldEnable | fieldDisable | lineRead =>
    cases he
    exact of_decide_eq_true hw
  | _ =>
    cases he <;>
    · change (_ && _) = true at hw
      simp only [Bool.and_eq_true, and_assoc] at hw
      obtain ⟨htag, -⟩ := hw
      exact of_decide_eq_true htag

/-- A taken frame does what the request does that its payload carries (R174). -/
theorem exec_eq_takeFrame (hw : i.wellFormed = true) (he : i.envelope = some env)
    (hk : encodeRequest i = some (kind, payload)) (s : State) :
    exec i s = .next (s.takeFrame env kind.letters payload) := by
  obtain ⟨hparse, -⟩ := Instr.readsBack hw env kind payload he hk
  have hasked : ∀ h : State, h.answerFrame env kind.letters payload = h.perform kind (performRequest i) := fun h => by
    rw [State.answerFrame_known, State.answerPayload, hparse]
  rw [exec_take he (kind_of_encode hk), State.takeFrame]
  simp only [hasked]
  rfl

/-- The frame that carries a request is judged as the request (R171, R174). -/
theorem exec_eq_judgeFrame (hw : i.wellFormed = true) (he : i.envelope = some env)
    (hk : encodeRequest i = some (kind, payload)) (s : State) :
    exec i s =
      .next
        (s.judgeFrame (requestFrame (if env.broadcast then 0 else s.plant.straps.station) kind env.tag payload)) := by
  obtain ⟨-, hlen⟩ := Instr.readsBack hw env kind payload he hk
  obtain ⟨hi, lo, hc, hframe⟩ :=
    requestFrame_eq (if env.broadcast then 0 else s.plant.straps.station) kind env.tag payload
  obtain ⟨hmine, hbroadcast⟩ := stationByte_mine s.plant.straps env.broadcast
  rw [hframe, State.judgeFrame_mine (toNat_b8 (by omega)).symm hc hmine, hbroadcast, toNat_b8 (tag_fits hw he),
    exec_eq_takeFrame hw he hk]

theorem frameWhole_requestFrame (station : Nat) (hlen : payload.length + 3 ≤ 250) :
    frameWhole (requestFrame station kind env.tag payload) = true := by
  obtain ⟨hi, lo, -, hframe⟩ := requestFrame_eq station kind env.tag payload
  rw [hframe]
  exact frameWhole_frameOf (toNat_b8 (by omega)).symm

/-- The last byte of the frame does what the request does to a part that has collected the others. -/
theorem exec_lastByte (hw : i.wellFormed = true) (he : i.envelope = some env) (hk : encodeRequest i = some (kind, payload))
    {s : State} {bytes : List Byte} {last : Byte}
    (hframe : requestFrame (if env.broadcast then 0 else s.plant.straps.station) kind env.tag payload = bytes ++ [last])
    (hrec : s.link.receiver = .frame bytes) : exec (.frameComplete last) s = exec i s := by
  obtain ⟨-, hlen⟩ := Instr.readsBack hw env kind payload he hk
  cases hl : s.listening with
  | false =>
    have hlost : exec i s = .next s := by
      rw [exec_take he (kind_of_encode hk), State.take, State.complete_lost (State.listening_false_iff.1 hl)]
    rw [execFrameComplete_deaf hl, hlost]
  | true =>
    have hwhole : frameWhole (bytes ++ [last]) = true := hframe ▸ frameWhole_requestFrame _ hlen
    rw [exec_frameComplete_whole hrec hwhole, State.takeByte_whole hl hrec hwhole, exec_eq_judgeFrame hw he hk, hframe]

end Carried

/-! ### Byte by byte (R170) -/

/-- The bytes of a line, one after the other. -/
def arrive (o : Host.Outcome State Fault Refusal) (b : Byte) : Host.Outcome State Fault Refusal :=
  match o with
  | .next t => exec (.byteArrival b) t
  | x => x

theorem foldl_arrive (bytes : List Byte) (s : State) :
    bytes.foldl arrive (.next s) = .next (bytes.foldl State.takeByte s) := by
  induction bytes generalizing s with
  | nil => rfl
  | cons b bytes ih => exact ih (s.takeByte b)

theorem lengthByte_append {bytes : List Byte} (h : 3 ≤ bytes.length) (more : List Byte) :
    lengthByte (bytes ++ more) = lengthByte bytes := by
  rw [lengthByte, lengthByte, List.getD_append _ _ _ _ (by omega)]

/-- A part that hunts collects a frame that opens with the sync byte up to its last byte (R170). -/
theorem State.collects {s : State} (hl : s.listening = true) (hr : s.link.receiver = .hunt) {rest : List Byte}
    (hw : frameWhole (0xC3 :: rest) = true) (hn : 3 ≤ lengthByte (0xC3 :: rest) ∧ lengthByte (0xC3 :: rest) ≤ 250)
    (bytes : List Byte) {more : List Byte} (hmore : more ≠ []) (hbytes : rest = bytes ++ more) :
    (0xC3 :: bytes).foldl State.takeByte s = s.withLink fun l => { l with receiver := .frame (0xC3 :: bytes) } := by
  induction bytes using List.reverseRecOn generalizing more with
  | nil => exact (State.takeByte_hunting hl hr _).trans (if_pos rfl)
  | append_singleton bytes b ih =>
    have hlen : 0 < more.length := List.length_pos_iff.2 hmore
    obtain ⟨-, hwhole⟩ := (frameWhole_iff _).1 hw
    have hsplit : 0xC3 :: rest = (0xC3 :: bytes ++ [b]) ++ more := by simp [hbytes]
    rw [hsplit] at hn hwhole
    have hbyte (h : 3 ≤ (0xC3 :: bytes ++ [b]).length) := lengthByte_append h more
    rw [← List.cons_append, List.foldl_append, ih (more := b :: more) (by simp) (by simp [hbytes])]
    refine (State.takeByte_frame (s := s.withLink fun l => { l with receiver := .frame (0xC3 :: bytes) }) hl rfl b).trans
      ((State.collect_partial (fun h => ?_) fun h hc => ?_).trans rfl)
    · rw [hbyte (by omega)] at hn
      exact hn
    · rw [hbyte h, List.length_append] at hwhole
      omega

/-- What the completion of a frame does to a part that takes bytes does not depend on the bytes collected. -/
theorem State.complete_withReceiver {s : State} (hr : s.mode = .running) (ht : s.link.txen = false) (r : Receiver)
    (f : State → State) : (s.withLink fun l => { l with receiver := r }).complete f = s.complete f := by
  cases hu : s.link.unanswered with
  | none =>
    rw [State.complete_ready hr ht hu]
    exact State.complete_ready (s := s.withLink fun l => { l with receiver := r }) hr ht hu f
  | some u =>
    have hsome : s.link.unanswered.isSome = true := by rw [hu]; rfl
    rw [State.complete_overrun hr ht hsome]
    exact State.complete_overrun (s := s.withLink fun l => { l with receiver := r }) hr ht hsome f

theorem exec_withReceiver {i : Instr} {env : Envelope} {kind : RequestKind} (he : i.envelope = some env)
    (hk : i.kind = some kind) {s : State} (hr : s.mode = .running) (ht : s.link.txen = false) (r : Receiver) :
    exec i (s.withLink fun l => { l with receiver := r }) = exec i s := by
  rw [exec_take he hk, exec_take he hk, State.take, State.take, State.complete_withReceiver hr ht]

/-- Settles O44: the last byte has the frame judged, and its payload is read back as the request; the bytes before it are
collected. -/
theorem frameCarriesRequest : Obligations.FrameCarriesRequest := by
  unfold Obligations.FrameCarriesRequest
  intro s i env kind payload hw he hk frame
  refine ⟨fun bytes last hframe hrec => exec_lastByte hw he hk hframe hrec, fun hr ht hrec => ?_⟩
  obtain ⟨-, hlen⟩ := Instr.readsBack hw env kind payload he hk
  obtain ⟨bytes, last, hsplit⟩ : ∃ bytes last, frame = 0xC3 :: (bytes ++ [last]) := by
    obtain ⟨hi, lo, -, hframe⟩ := requestFrame_eq (if env.broadcast then 0 else s.plant.straps.station) kind env.tag payload
    exact ⟨_, lo, hframe.trans frameOf_eq_concat⟩
  have hwhole : frameWhole (0xC3 :: (bytes ++ [last])) = true := hsplit ▸ frameWhole_requestFrame _ hlen
  have hn : lengthByte (0xC3 :: (bytes ++ [last])) = payload.length + 3 := hsplit ▸ toNat_b8 (by omega)
  let t := s.withLink fun l => { l with receiver := .frame (0xC3 :: bytes) }
  have hcollected : (0xC3 :: bytes).foldl State.takeByte s = t :=
    State.collects (s.listening_iff.2 ⟨hr, ht⟩) hrec hwhole (by omega) bytes (List.cons_ne_nil last []) rfl
  change frame.foldl arrive (.next s) = exec i s
  calc frame.foldl arrive (.next s)
      = .next (t.takeByte last) := by
        rw [hsplit, foldl_arrive, ← List.cons_append, List.foldl_append, hcollected, List.foldl_cons, List.foldl_nil]
    _ = exec (.frameComplete last) t := (exec_frameComplete_whole rfl hwhole).symm
    _ = exec i t := exec_lastByte (bytes := 0xC3 :: bytes) hw he hk hsplit rfl
    _ = exec i s := exec_withReceiver he (kind_of_encode hk) hr ht _

end Sys2Proof.Machine
end

section
/-! SUPPORT. Proofs: the statement on the step. -/

namespace Sys2Proof.Machine

/-- Settles O1: a queue with a front command takes the second branch of `step`. -/
theorem stepRunsFrontCommand : Obligations.StepRunsFrontCommand := by
  unfold Obligations.StepRunsFrontCommand
  intro s c rest hfront
  unfold step
  rw [hfront]

end Sys2Proof.Machine
end
